-- ==== Sys2Proof/Word.lean ====
section
/-! DEFINITION. The word types of the core: every register but PC and every memory cell has 8 bits, PC and every
address have 16 (00_scope.md R6, R7: BYTE_WIDTH = 8, ADDR_WIDTH = 16). -/

namespace Sys2Proof

/-- An 8-bit value: a data register, a memory cell, an opcode, an operand byte (R6, R7). -/
abbrev Byte := BitVec 8

/-- A 16-bit value: PC or an address. Its arithmetic wraps from 0xFFFF to 0x0000 (R6, R25). -/
abbrev Addr := BitVec 16

end Sys2Proof
end

