-- ==== Sys2Proof/Config.lean ====
section
/-! DEFINITION. The parameters a model of the core takes (00_scope.md R6), and the free values of the parameters
whose value an implementation may choose. -/

namespace Sys2Proof

/-- `VARIANT`: the 6502 or the 65C02 (R2). Fixed for the life of a core. -/
inductive Variant where
  | nmos
  | cmos
  deriving DecidableEq, Repr

/-- `ILLEGAL_POLICY` (R6, R92): what an opcode byte with no descriptor does. -/
inductive IllegalPolicy where
  | strict
  | permissive
  deriving DecidableEq, Repr

/-- `RESET_PC_SOURCE`, with the argument `START_PC` of its second value (R6, R340). -/
inductive ResetPcSource where
  | vector
  | fixed (startPc : Addr)
  deriving DecidableEq, Repr

/-- Whether a parameter that R6 gives a reference value (or default algorithm) takes that value, or a value of the
implementation's own, about which nothing is known (log entries 6 and 7). -/
inductive ParamSource where
  | reference
  | implementation
  deriving DecidableEq, Repr

/-- The parameters of R6 that are not fixed. `ADDR_WIDTH` is fixed at 16 and `BYTE_WIDTH` at 8. -/
structure Config where
  /-- `VARIANT` -/
  variant : Variant
  /-- `WDC_EXTRAS`: read on CMOS only (R86, R270) -/
  wdcExtras : Bool
  /-- `ILLEGAL_POLICY` -/
  illegalPolicy : IllegalPolicy
  /-- `PERMISSIVE_CYCLES` -/
  permissiveCycles : Nat
  /-- `RESET_PC_SOURCE` and `START_PC` -/
  resetPcSource : ResetPcSource
  /-- `DECIMAL_NONBCD` (R158) -/
  decimalNonBcd : ParamSource
  /-- `CYCLE_TABLE` (R351) -/
  cycleTable : ParamSource
  /-- `PAGE_CROSS_SET` (R352) -/
  pageCrossSet : ParamSource
  deriving DecidableEq, Repr

/-- The configuration of `State.reset`: R6's default for each parameter that has one. DESIGN CHOICE for the two OPEN
ones: `VARIANT` is CMOS (log entry 1) and `RESET_PC_SOURCE` is `Vector` (log entry 2). -/
def Config.default : Config where
  variant := .cmos
  wdcExtras := false
  illegalPolicy := .strict
  permissiveCycles := 2
  resetPcSource := .vector
  decimalNonBcd := .reference
  cycleTable := .reference
  pageCrossSet := .reference

/-- The configuration in which all 256 opcode bytes have a descriptor (R86). -/
def Config.allOpcodes : Config := { Config.default with wdcExtras := true }

/-- What an ALU add or subtract returns: the 8-bit result and the four flags (R160). -/
structure AluResult where
  r : Byte
  n : Bool
  v : Bool
  z : Bool
  c : Bool
  deriving DecidableEq, Repr, Inhabited

/-- Free value: an implementation's own `DECIMAL_NONBCD` for ADC, by variant, A, operand and carry (R158, log entry 6). -/
opaque Config.nonBcdAdd : Variant → Byte → Byte → Bool → AluResult

/-- Free value: an implementation's own `DECIMAL_NONBCD` for SBC (R158, log entry 6). -/
opaque Config.nonBcdSub : Variant → Byte → Byte → Bool → AluResult

/-- Free value: an implementation's own `CYCLE_TABLE` (R6, R351, log entry 7). -/
opaque Config.implBaseCycles : Variant → Byte → Nat

/-- Free value: an implementation's own `PAGE_CROSS_SET` (R6, R352, log entry 7). -/
opaque Config.implPageCross : Byte → Bool

end Sys2Proof
end

