-- ==== Sys2Proof/Machine/Bits.lean ====
section
/-! DEFINITION. Byte order, sign extension and page helpers (00_scope.md R8, R9; 20_memory.md R52; the glossary's
'page cross'). -/

namespace Sys2Proof

/-- The 16-bit word with the given high and low bytes: `(hi << 8) OR lo` (R9, R52). -/
def word (hi lo : Byte) : Addr := hi ++ lo

/-- The high byte of a word, `(w >> 8) AND 0xFF`: its page (R62, glossary). -/
def hiByte (w : Addr) : Byte := w.extractLsb' 8 8

/-- The low byte of a word, `w AND 0xFF` (R62). -/
def loByte (w : Addr) : Byte := w.extractLsb' 0 8

/-- A zero-page address, `zext_16(z)` (R9, R81). -/
def zeroPage (z : Byte) : Addr := z.setWidth 16

/-- `sext_8` of an offset byte, as a 16-bit two's-complement addend (R9, R81, R120). -/
def signedOffset (off : Byte) : Addr := off.signExtend 16

/-- Whether two addresses lie in different pages: their high bytes differ (R112, R220). -/
def pageDiffers (a b : Addr) : Bool := hiByte a != hiByte b

end Sys2Proof
end

