-- ==== Sys2Proof/Syntax.lean ====
section
/-! DEFINITION. The addressing-mode tags (30_encoding.md R80) and the instructions: one constructor per row of the
opcode table (R84 to R86), in the table's order but for the one-byte optional NOPs of R289, which stand last (Lean's
compiler numbers at most 244 constructors that carry data), with its operand bytes. An `imm` operand `v`, a zero-page operand `z`
and an offset `off` are the byte itself; a 16-bit operand `w` is the word of the two operand bytes, low byte first
(R81). -/

namespace Sys2Proof

/-- The addressing-mode tags of R80. -/
inductive Mode where
  | imp
  | acc
  | imm
  | zpg
  | zpx
  | zpy
  | abs
  | absx
  | absy
  | ind
  | indx
  | indy
  | zpi
  | iax
  | rel
  | zrel
  deriving DecidableEq, Repr

/-- An instruction: the row of the opcode table and its operands (R80 to R86). -/
inductive Instr where
  /-- 0x00: BRK `imp` (R260) -/
  | brk
  /-- 0x01: ORA `indx` (R191) -/
  | oraIndx (z : Byte)
  /-- 0x02: NOP `imm` (R289), CMOS with WDC_EXTRAS -/
  | nop02 (v : Byte)
  /-- 0x04: TSB `zpg` (R198), CMOS only -/
  | tsbZpg (z : Byte)
  /-- 0x05: ORA `zpg` (R191) -/
  | oraZpg (z : Byte)
  /-- 0x06: ASL `zpg` (R194) -/
  | aslZpg (z : Byte)
  /-- 0x07: RMB0 `zpg` (R200), CMOS only -/
  | rmb0 (z : Byte)
  /-- 0x08: PHP `imp` (R241) -/
  | php
  /-- 0x09: ORA `imm` (R191) -/
  | oraImm (v : Byte)
  /-- 0x0A: ASL `acc` (R194) -/
  | aslAcc
  /-- 0x0C: TSB `abs` (R198), CMOS only -/
  | tsbAbs (w : Addr)
  /-- 0x0D: ORA `abs` (R191) -/
  | oraAbs (w : Addr)
  /-- 0x0E: ASL `abs` (R194) -/
  | aslAbs (w : Addr)
  /-- 0x0F: BBR0 `zrel` (R271), CMOS with WDC_EXTRAS -/
  | bbr0 (z : Byte) (off : Byte)
  /-- 0x10: BPL `rel` (R226) -/
  | bpl (off : Byte)
  /-- 0x11: ORA `indy` (R191) -/
  | oraIndy (z : Byte)
  /-- 0x12: ORA `zpi` (R191), CMOS only -/
  | oraZpi (z : Byte)
  /-- 0x14: TRB `zpg` (R199), CMOS only -/
  | trbZpg (z : Byte)
  /-- 0x15: ORA `zpx` (R191) -/
  | oraZpx (z : Byte)
  /-- 0x16: ASL `zpx` (R194) -/
  | aslZpx (z : Byte)
  /-- 0x17: RMB1 `zpg` (R201), CMOS only -/
  | rmb1 (z : Byte)
  /-- 0x18: CLC `imp` (R248) -/
  | clc
  /-- 0x19: ORA `absy` (R191) -/
  | oraAbsy (w : Addr)
  /-- 0x1A: INC `acc` (R172), CMOS only -/
  | incAcc
  /-- 0x1C: TRB `abs` (R199), CMOS only -/
  | trbAbs (w : Addr)
  /-- 0x1D: ORA `absx` (R191) -/
  | oraAbsx (w : Addr)
  /-- 0x1E: ASL `absx` (R194) -/
  | aslAbsx (w : Addr)
  /-- 0x1F: BBR1 `zrel` (R272), CMOS with WDC_EXTRAS -/
  | bbr1 (z : Byte) (off : Byte)
  /-- 0x20: JSR `abs` (R231) -/
  | jsr (w : Addr)
  /-- 0x21: AND `indx` (R190) -/
  | andIndx (z : Byte)
  /-- 0x22: NOP `imm` (R289), CMOS with WDC_EXTRAS -/
  | nop22 (v : Byte)
  /-- 0x24: BIT `zpg` (R193) -/
  | bitZpg (z : Byte)
  /-- 0x25: AND `zpg` (R190) -/
  | andZpg (z : Byte)
  /-- 0x26: ROL `zpg` (R196) -/
  | rolZpg (z : Byte)
  /-- 0x27: RMB2 `zpg` (R202), CMOS only -/
  | rmb2 (z : Byte)
  /-- 0x28: PLP `imp` (R245) -/
  | plp
  /-- 0x29: AND `imm` (R190) -/
  | andImm (v : Byte)
  /-- 0x2A: ROL `acc` (R196) -/
  | rolAcc
  /-- 0x2C: BIT `abs` (R193) -/
  | bitAbs (w : Addr)
  /-- 0x2D: AND `abs` (R190) -/
  | andAbs (w : Addr)
  /-- 0x2E: ROL `abs` (R196) -/
  | rolAbs (w : Addr)
  /-- 0x2F: BBR2 `zrel` (R273), CMOS with WDC_EXTRAS -/
  | bbr2 (z : Byte) (off : Byte)
  /-- 0x30: BMI `rel` (R225) -/
  | bmi (off : Byte)
  /-- 0x31: AND `indy` (R190) -/
  | andIndy (z : Byte)
  /-- 0x32: AND `zpi` (R190), CMOS only -/
  | andZpi (z : Byte)
  /-- 0x34: BIT `zpx` (R287), CMOS with WDC_EXTRAS -/
  | bitZpx (z : Byte)
  /-- 0x35: AND `zpx` (R190) -/
  | andZpx (z : Byte)
  /-- 0x36: ROL `zpx` (R196) -/
  | rolZpx (z : Byte)
  /-- 0x37: RMB3 `zpg` (R203), CMOS only -/
  | rmb3 (z : Byte)
  /-- 0x38: SEC `imp` (R249) -/
  | sec
  /-- 0x39: AND `absy` (R190) -/
  | andAbsy (w : Addr)
  /-- 0x3A: DEC `acc` (R173), CMOS only -/
  | decAcc
  /-- 0x3C: BIT `absx` (R287), CMOS with WDC_EXTRAS -/
  | bitAbsx (w : Addr)
  /-- 0x3D: AND `absx` (R190) -/
  | andAbsx (w : Addr)
  /-- 0x3E: ROL `absx` (R196) -/
  | rolAbsx (w : Addr)
  /-- 0x3F: BBR3 `zrel` (R274), CMOS with WDC_EXTRAS -/
  | bbr3 (z : Byte) (off : Byte)
  /-- 0x40: RTI `imp` (R261) -/
  | rti
  /-- 0x41: EOR `indx` (R192) -/
  | eorIndx (z : Byte)
  /-- 0x42: NOP `imm` (R289), CMOS with WDC_EXTRAS -/
  | nop42 (v : Byte)
  /-- 0x44: NOP `zpg` (R289), CMOS with WDC_EXTRAS -/
  | nop44 (z : Byte)
  /-- 0x45: EOR `zpg` (R192) -/
  | eorZpg (z : Byte)
  /-- 0x46: LSR `zpg` (R195) -/
  | lsrZpg (z : Byte)
  /-- 0x47: RMB4 `zpg` (R204), CMOS only -/
  | rmb4 (z : Byte)
  /-- 0x48: PHA `imp` (R240) -/
  | pha
  /-- 0x49: EOR `imm` (R192) -/
  | eorImm (v : Byte)
  /-- 0x4A: LSR `acc` (R195) -/
  | lsrAcc
  /-- 0x4C: JMP `abs` (R230) -/
  | jmpAbs (w : Addr)
  /-- 0x4D: EOR `abs` (R192) -/
  | eorAbs (w : Addr)
  /-- 0x4E: LSR `abs` (R195) -/
  | lsrAbs (w : Addr)
  /-- 0x4F: BBR4 `zrel` (R275), CMOS with WDC_EXTRAS -/
  | bbr4 (z : Byte) (off : Byte)
  /-- 0x50: BVC `rel` (R227) -/
  | bvc (off : Byte)
  /-- 0x51: EOR `indy` (R192) -/
  | eorIndy (z : Byte)
  /-- 0x52: EOR `zpi` (R192), CMOS only -/
  | eorZpi (z : Byte)
  /-- 0x54: NOP `zpx` (R289), CMOS with WDC_EXTRAS -/
  | nop54 (z : Byte)
  /-- 0x55: EOR `zpx` (R192) -/
  | eorZpx (z : Byte)
  /-- 0x56: LSR `zpx` (R195) -/
  | lsrZpx (z : Byte)
  /-- 0x57: RMB5 `zpg` (R205), CMOS only -/
  | rmb5 (z : Byte)
  /-- 0x58: CLI `imp` (R250) -/
  | cli
  /-- 0x59: EOR `absy` (R192) -/
  | eorAbsy (w : Addr)
  /-- 0x5A: PHY `imp` (R243), CMOS only -/
  | phy
  /-- 0x5C: NOP `abs` (R289), CMOS with WDC_EXTRAS -/
  | nop5C (w : Addr)
  /-- 0x5D: EOR `absx` (R192) -/
  | eorAbsx (w : Addr)
  /-- 0x5E: LSR `absx` (R195) -/
  | lsrAbsx (w : Addr)
  /-- 0x5F: BBR5 `zrel` (R276), CMOS with WDC_EXTRAS -/
  | bbr5 (z : Byte) (off : Byte)
  /-- 0x60: RTS `imp` (R232) -/
  | rts
  /-- 0x61: ADC `indx` (R166) -/
  | adcIndx (z : Byte)
  /-- 0x62: NOP `imm` (R289), CMOS with WDC_EXTRAS -/
  | nop62 (v : Byte)
  /-- 0x64: STZ `zpg` (R146), CMOS only -/
  | stzZpg (z : Byte)
  /-- 0x65: ADC `zpg` (R166) -/
  | adcZpg (z : Byte)
  /-- 0x66: ROR `zpg` (R197) -/
  | rorZpg (z : Byte)
  /-- 0x67: RMB6 `zpg` (R206), CMOS only -/
  | rmb6 (z : Byte)
  /-- 0x68: PLA `imp` (R244) -/
  | pla
  /-- 0x69: ADC `imm` (R166) -/
  | adcImm (v : Byte)
  /-- 0x6A: ROR `acc` (R197) -/
  | rorAcc
  /-- 0x6C: JMP `ind` (R230) -/
  | jmpInd (w : Addr)
  /-- 0x6D: ADC `abs` (R166) -/
  | adcAbs (w : Addr)
  /-- 0x6E: ROR `abs` (R197) -/
  | rorAbs (w : Addr)
  /-- 0x6F: BBR6 `zrel` (R277), CMOS with WDC_EXTRAS -/
  | bbr6 (z : Byte) (off : Byte)
  /-- 0x70: BVS `rel` (R228) -/
  | bvs (off : Byte)
  /-- 0x71: ADC `indy` (R166) -/
  | adcIndy (z : Byte)
  /-- 0x72: ADC `zpi` (R166), CMOS only -/
  | adcZpi (z : Byte)
  /-- 0x74: STZ `zpx` (R146), CMOS only -/
  | stzZpx (z : Byte)
  /-- 0x75: ADC `zpx` (R166) -/
  | adcZpx (z : Byte)
  /-- 0x76: ROR `zpx` (R197) -/
  | rorZpx (z : Byte)
  /-- 0x77: RMB7 `zpg` (R207), CMOS only -/
  | rmb7 (z : Byte)
  /-- 0x78: SEI `imp` (R251) -/
  | sei
  /-- 0x79: ADC `absy` (R166) -/
  | adcAbsy (w : Addr)
  /-- 0x7A: PLY `imp` (R247), CMOS only -/
  | ply
  /-- 0x7C: JMP `iax` (R230), CMOS only -/
  | jmpIax (w : Addr)
  /-- 0x7D: ADC `absx` (R166) -/
  | adcAbsx (w : Addr)
  /-- 0x7E: ROR `absx` (R197) -/
  | rorAbsx (w : Addr)
  /-- 0x7F: BBR7 `zrel` (R278), CMOS with WDC_EXTRAS -/
  | bbr7 (z : Byte) (off : Byte)
  /-- 0x80: BRA `rel` (R229), CMOS only -/
  | bra (off : Byte)
  /-- 0x81: STA `indx` (R143) -/
  | staIndx (z : Byte)
  /-- 0x82: NOP `imm` (R289), CMOS with WDC_EXTRAS -/
  | nop82 (v : Byte)
  /-- 0x84: STY `zpg` (R145) -/
  | styZpg (z : Byte)
  /-- 0x85: STA `zpg` (R143) -/
  | staZpg (z : Byte)
  /-- 0x86: STX `zpg` (R144) -/
  | stxZpg (z : Byte)
  /-- 0x87: SMB0 `zpg` (R208), CMOS only -/
  | smb0 (z : Byte)
  /-- 0x88: DEY `imp` (R177) -/
  | dey
  /-- 0x89: BIT `imm` (R193), CMOS only -/
  | bitImm (v : Byte)
  /-- 0x8A: TXA `imp` (R149) -/
  | txa
  /-- 0x8C: STY `abs` (R145) -/
  | styAbs (w : Addr)
  /-- 0x8D: STA `abs` (R143) -/
  | staAbs (w : Addr)
  /-- 0x8E: STX `abs` (R144) -/
  | stxAbs (w : Addr)
  /-- 0x8F: BBS0 `zrel` (R279), CMOS with WDC_EXTRAS -/
  | bbs0 (z : Byte) (off : Byte)
  /-- 0x90: BCC `rel` (R221) -/
  | bcc (off : Byte)
  /-- 0x91: STA `indy` (R143) -/
  | staIndy (z : Byte)
  /-- 0x92: STA `zpi` (R143), CMOS only -/
  | staZpi (z : Byte)
  /-- 0x94: STY `zpx` (R145) -/
  | styZpx (z : Byte)
  /-- 0x95: STA `zpx` (R143) -/
  | staZpx (z : Byte)
  /-- 0x96: STX `zpy` (R144) -/
  | stxZpy (z : Byte)
  /-- 0x97: SMB1 `zpg` (R209), CMOS only -/
  | smb1 (z : Byte)
  /-- 0x98: TYA `imp` (R150) -/
  | tya
  /-- 0x99: STA `absy` (R143) -/
  | staAbsy (w : Addr)
  /-- 0x9A: TXS `imp` (R152) -/
  | txs
  /-- 0x9C: STZ `abs` (R146), CMOS only -/
  | stzAbs (w : Addr)
  /-- 0x9D: STA `absx` (R143) -/
  | staAbsx (w : Addr)
  /-- 0x9E: STZ `absx` (R146), CMOS only -/
  | stzAbsx (w : Addr)
  /-- 0x9F: BBS1 `zrel` (R280), CMOS with WDC_EXTRAS -/
  | bbs1 (z : Byte) (off : Byte)
  /-- 0xA0: LDY `imm` (R142) -/
  | ldyImm (v : Byte)
  /-- 0xA1: LDA `indx` (R140) -/
  | ldaIndx (z : Byte)
  /-- 0xA2: LDX `imm` (R141) -/
  | ldxImm (v : Byte)
  /-- 0xA4: LDY `zpg` (R142) -/
  | ldyZpg (z : Byte)
  /-- 0xA5: LDA `zpg` (R140) -/
  | ldaZpg (z : Byte)
  /-- 0xA6: LDX `zpg` (R141) -/
  | ldxZpg (z : Byte)
  /-- 0xA7: SMB2 `zpg` (R210), CMOS only -/
  | smb2 (z : Byte)
  /-- 0xA8: TAY `imp` (R148) -/
  | tay
  /-- 0xA9: LDA `imm` (R140) -/
  | ldaImm (v : Byte)
  /-- 0xAA: TAX `imp` (R147) -/
  | tax
  /-- 0xAC: LDY `abs` (R142) -/
  | ldyAbs (w : Addr)
  /-- 0xAD: LDA `abs` (R140) -/
  | ldaAbs (w : Addr)
  /-- 0xAE: LDX `abs` (R141) -/
  | ldxAbs (w : Addr)
  /-- 0xAF: BBS2 `zrel` (R281), CMOS with WDC_EXTRAS -/
  | bbs2 (z : Byte) (off : Byte)
  /-- 0xB0: BCS `rel` (R222) -/
  | bcs (off : Byte)
  /-- 0xB1: LDA `indy` (R140) -/
  | ldaIndy (z : Byte)
  /-- 0xB2: LDA `zpi` (R140), CMOS only -/
  | ldaZpi (z : Byte)
  /-- 0xB4: LDY `zpx` (R142) -/
  | ldyZpx (z : Byte)
  /-- 0xB5: LDA `zpx` (R140) -/
  | ldaZpx (z : Byte)
  /-- 0xB6: LDX `zpy` (R141) -/
  | ldxZpy (z : Byte)
  /-- 0xB7: SMB3 `zpg` (R211), CMOS only -/
  | smb3 (z : Byte)
  /-- 0xB8: CLV `imp` (R254) -/
  | clv
  /-- 0xB9: LDA `absy` (R140) -/
  | ldaAbsy (w : Addr)
  /-- 0xBA: TSX `imp` (R151) -/
  | tsx
  /-- 0xBC: LDY `absx` (R142) -/
  | ldyAbsx (w : Addr)
  /-- 0xBD: LDA `absx` (R140) -/
  | ldaAbsx (w : Addr)
  /-- 0xBE: LDX `absy` (R141) -/
  | ldxAbsy (w : Addr)
  /-- 0xBF: BBS3 `zrel` (R282), CMOS with WDC_EXTRAS -/
  | bbs3 (z : Byte) (off : Byte)
  /-- 0xC0: CPY `imm` (R171) -/
  | cpyImm (v : Byte)
  /-- 0xC1: CMP `indx` (R169) -/
  | cmpIndx (z : Byte)
  /-- 0xC2: NOP `imm` (R289), CMOS with WDC_EXTRAS -/
  | nopC2 (v : Byte)
  /-- 0xC4: CPY `zpg` (R171) -/
  | cpyZpg (z : Byte)
  /-- 0xC5: CMP `zpg` (R169) -/
  | cmpZpg (z : Byte)
  /-- 0xC6: DEC `zpg` (R173) -/
  | decZpg (z : Byte)
  /-- 0xC7: SMB4 `zpg` (R212), CMOS only -/
  | smb4 (z : Byte)
  /-- 0xC8: INY `imp` (R175) -/
  | iny
  /-- 0xC9: CMP `imm` (R169) -/
  | cmpImm (v : Byte)
  /-- 0xCA: DEX `imp` (R176) -/
  | dex
  /-- 0xCB: WAI `imp` (R262), CMOS only -/
  | wai
  /-- 0xCC: CPY `abs` (R171) -/
  | cpyAbs (w : Addr)
  /-- 0xCD: CMP `abs` (R169) -/
  | cmpAbs (w : Addr)
  /-- 0xCE: DEC `abs` (R173) -/
  | decAbs (w : Addr)
  /-- 0xCF: BBS4 `zrel` (R283), CMOS with WDC_EXTRAS -/
  | bbs4 (z : Byte) (off : Byte)
  /-- 0xD0: BNE `rel` (R224) -/
  | bne (off : Byte)
  /-- 0xD1: CMP `indy` (R169) -/
  | cmpIndy (z : Byte)
  /-- 0xD2: CMP `zpi` (R169), CMOS only -/
  | cmpZpi (z : Byte)
  /-- 0xD4: NOP `zpx` (R289), CMOS with WDC_EXTRAS -/
  | nopD4 (z : Byte)
  /-- 0xD5: CMP `zpx` (R169) -/
  | cmpZpx (z : Byte)
  /-- 0xD6: DEC `zpx` (R173) -/
  | decZpx (z : Byte)
  /-- 0xD7: SMB5 `zpg` (R213), CMOS only -/
  | smb5 (z : Byte)
  /-- 0xD8: CLD `imp` (R252) -/
  | cld
  /-- 0xD9: CMP `absy` (R169) -/
  | cmpAbsy (w : Addr)
  /-- 0xDA: PHX `imp` (R242), CMOS only -/
  | phx
  /-- 0xDB: STP `imp` (R288), CMOS with WDC_EXTRAS -/
  | stp
  /-- 0xDC: NOP `abs` (R289), CMOS with WDC_EXTRAS -/
  | nopDC (w : Addr)
  /-- 0xDD: CMP `absx` (R169) -/
  | cmpAbsx (w : Addr)
  /-- 0xDE: DEC `absx` (R173) -/
  | decAbsx (w : Addr)
  /-- 0xDF: BBS5 `zrel` (R284), CMOS with WDC_EXTRAS -/
  | bbs5 (z : Byte) (off : Byte)
  /-- 0xE0: CPX `imm` (R170) -/
  | cpxImm (v : Byte)
  /-- 0xE1: SBC `indx` (R167) -/
  | sbcIndx (z : Byte)
  /-- 0xE2: NOP `imm` (R289), CMOS with WDC_EXTRAS -/
  | nopE2 (v : Byte)
  /-- 0xE4: CPX `zpg` (R170) -/
  | cpxZpg (z : Byte)
  /-- 0xE5: SBC `zpg` (R167) -/
  | sbcZpg (z : Byte)
  /-- 0xE6: INC `zpg` (R172) -/
  | incZpg (z : Byte)
  /-- 0xE7: SMB6 `zpg` (R214), CMOS only -/
  | smb6 (z : Byte)
  /-- 0xE8: INX `imp` (R174) -/
  | inx
  /-- 0xE9: SBC `imm` (R167) -/
  | sbcImm (v : Byte)
  /-- 0xEA: NOP `imp` (R255) -/
  | nop
  /-- 0xEC: CPX `abs` (R170) -/
  | cpxAbs (w : Addr)
  /-- 0xED: SBC `abs` (R167) -/
  | sbcAbs (w : Addr)
  /-- 0xEE: INC `abs` (R172) -/
  | incAbs (w : Addr)
  /-- 0xEF: BBS6 `zrel` (R285), CMOS with WDC_EXTRAS -/
  | bbs6 (z : Byte) (off : Byte)
  /-- 0xF0: BEQ `rel` (R223) -/
  | beq (off : Byte)
  /-- 0xF1: SBC `indy` (R167) -/
  | sbcIndy (z : Byte)
  /-- 0xF2: SBC `zpi` (R167), CMOS only -/
  | sbcZpi (z : Byte)
  /-- 0xF4: NOP `zpx` (R289), CMOS with WDC_EXTRAS -/
  | nopF4 (z : Byte)
  /-- 0xF5: SBC `zpx` (R167) -/
  | sbcZpx (z : Byte)
  /-- 0xF6: INC `zpx` (R172) -/
  | incZpx (z : Byte)
  /-- 0xF7: SMB7 `zpg` (R215), CMOS only -/
  | smb7 (z : Byte)
  /-- 0xF8: SED `imp` (R253) -/
  | sed
  /-- 0xF9: SBC `absy` (R167) -/
  | sbcAbsy (w : Addr)
  /-- 0xFA: PLX `imp` (R246), CMOS only -/
  | plx
  /-- 0xFC: NOP `abs` (R289), CMOS with WDC_EXTRAS -/
  | nopFC (w : Addr)
  /-- 0xFD: SBC `absx` (R167) -/
  | sbcAbsx (w : Addr)
  /-- 0xFE: INC `absx` (R172) -/
  | incAbsx (w : Addr)
  /-- 0xFF: BBS7 `zrel` (R286), CMOS with WDC_EXTRAS -/
  | bbs7 (z : Byte) (off : Byte)
  /-- 0x03: NOP `imp` (R289), CMOS with WDC_EXTRAS -/
  | nop03
  /-- 0x0B: NOP `imp` (R289), CMOS with WDC_EXTRAS -/
  | nop0B
  /-- 0x13: NOP `imp` (R289), CMOS with WDC_EXTRAS -/
  | nop13
  /-- 0x1B: NOP `imp` (R289), CMOS with WDC_EXTRAS -/
  | nop1B
  /-- 0x23: NOP `imp` (R289), CMOS with WDC_EXTRAS -/
  | nop23
  /-- 0x2B: NOP `imp` (R289), CMOS with WDC_EXTRAS -/
  | nop2B
  /-- 0x33: NOP `imp` (R289), CMOS with WDC_EXTRAS -/
  | nop33
  /-- 0x3B: NOP `imp` (R289), CMOS with WDC_EXTRAS -/
  | nop3B
  /-- 0x43: NOP `imp` (R289), CMOS with WDC_EXTRAS -/
  | nop43
  /-- 0x4B: NOP `imp` (R289), CMOS with WDC_EXTRAS -/
  | nop4B
  /-- 0x53: NOP `imp` (R289), CMOS with WDC_EXTRAS -/
  | nop53
  /-- 0x5B: NOP `imp` (R289), CMOS with WDC_EXTRAS -/
  | nop5B
  /-- 0x63: NOP `imp` (R289), CMOS with WDC_EXTRAS -/
  | nop63
  /-- 0x6B: NOP `imp` (R289), CMOS with WDC_EXTRAS -/
  | nop6B
  /-- 0x73: NOP `imp` (R289), CMOS with WDC_EXTRAS -/
  | nop73
  /-- 0x7B: NOP `imp` (R289), CMOS with WDC_EXTRAS -/
  | nop7B
  /-- 0x83: NOP `imp` (R289), CMOS with WDC_EXTRAS -/
  | nop83
  /-- 0x8B: NOP `imp` (R289), CMOS with WDC_EXTRAS -/
  | nop8B
  /-- 0x93: NOP `imp` (R289), CMOS with WDC_EXTRAS -/
  | nop93
  /-- 0x9B: NOP `imp` (R289), CMOS with WDC_EXTRAS -/
  | nop9B
  /-- 0xA3: NOP `imp` (R289), CMOS with WDC_EXTRAS -/
  | nopA3
  /-- 0xAB: NOP `imp` (R289), CMOS with WDC_EXTRAS -/
  | nopAB
  /-- 0xB3: NOP `imp` (R289), CMOS with WDC_EXTRAS -/
  | nopB3
  /-- 0xBB: NOP `imp` (R289), CMOS with WDC_EXTRAS -/
  | nopBB
  /-- 0xC3: NOP `imp` (R289), CMOS with WDC_EXTRAS -/
  | nopC3
  /-- 0xD3: NOP `imp` (R289), CMOS with WDC_EXTRAS -/
  | nopD3
  /-- 0xE3: NOP `imp` (R289), CMOS with WDC_EXTRAS -/
  | nopE3
  /-- 0xEB: NOP `imp` (R289), CMOS with WDC_EXTRAS -/
  | nopEB
  /-- 0xF3: NOP `imp` (R289), CMOS with WDC_EXTRAS -/
  | nopF3
  /-- 0xFB: NOP `imp` (R289), CMOS with WDC_EXTRAS -/
  | nopFB
  deriving DecidableEq, Repr

end Sys2Proof
end

