-- ==== Sys2Proof/Machine/OpcodeTable.lean ====
section
/-! DEFINITION. The opcode table: one descriptor per opcode byte, with its mnemonic, mode tag, base cycles and
page-cross flag (30_encoding.md R83 to R86; 70_reset_and_hazards.md R351, R352), which variants define it, and the
instruction its operand bytes build. The opcode byte of every instruction stands at the end. -/

namespace Sys2Proof

/-- Which tables hold an opcode: both variants' (R84), CMOS's patch set (R85), CMOS's optional set (R86). -/
inductive Availability where
  | both
  | cmos
  | wdc
  deriving DecidableEq, Repr

/-- An entry of the opcode table (R83). `build b1 b2` is the instruction with operand bytes `b1` and `b2`; a mode with
fewer operand bytes ignores the rest. -/
structure Descriptor where
  mnemonic : String
  mode : Mode
  avail : Availability
  /-- base cycles on NMOS (on an opcode NMOS does not define: the CMOS count, which no step reads) -/
  nmosCycles : Nat
  /-- base cycles on CMOS -/
  cmosCycles : Nat
  pageCross : Bool
  build : Byte → Byte → Instr

/-- The number of operand bytes of a mode (R80). -/
def Mode.operandBytes : Mode → Nat
  | .imp => 0
  | .acc => 0
  | .imm => 1
  | .zpg => 1
  | .zpx => 1
  | .zpy => 1
  | .abs => 2
  | .absx => 2
  | .absy => 2
  | .ind => 2
  | .indx => 1
  | .indy => 1
  | .zpi => 1
  | .iax => 2
  | .rel => 1
  | .zrel => 2

/-- The length in bytes of an instruction of a mode: the opcode byte and the operand bytes (R80, R82). -/
def Mode.length (m : Mode) : Nat := 1 + m.operandBytes

/-- Opcodes 0x00 to 0x0F. -/
def opcodeRow0 : List Descriptor := [
  ⟨"BRK", .imp, .both, 7, 7, false, fun _ _ => .brk⟩,
  ⟨"ORA", .indx, .both, 6, 6, false, fun b1 _ => .oraIndx b1⟩,
  ⟨"NOP", .imm, .wdc, 2, 2, false, fun b1 _ => .nop02 b1⟩,
  ⟨"NOP", .imp, .wdc, 1, 1, false, fun _ _ => .nop03⟩,
  ⟨"TSB", .zpg, .cmos, 5, 5, false, fun b1 _ => .tsbZpg b1⟩,
  ⟨"ORA", .zpg, .both, 3, 3, false, fun b1 _ => .oraZpg b1⟩,
  ⟨"ASL", .zpg, .both, 5, 5, false, fun b1 _ => .aslZpg b1⟩,
  ⟨"RMB0", .zpg, .cmos, 5, 5, false, fun b1 _ => .rmb0 b1⟩,
  ⟨"PHP", .imp, .both, 3, 3, false, fun _ _ => .php⟩,
  ⟨"ORA", .imm, .both, 2, 2, false, fun b1 _ => .oraImm b1⟩,
  ⟨"ASL", .acc, .both, 2, 2, false, fun _ _ => .aslAcc⟩,
  ⟨"NOP", .imp, .wdc, 1, 1, false, fun _ _ => .nop0B⟩,
  ⟨"TSB", .abs, .cmos, 6, 6, false, fun b1 b2 => .tsbAbs (word b2 b1)⟩,
  ⟨"ORA", .abs, .both, 4, 4, false, fun b1 b2 => .oraAbs (word b2 b1)⟩,
  ⟨"ASL", .abs, .both, 6, 6, false, fun b1 b2 => .aslAbs (word b2 b1)⟩,
  ⟨"BBR0", .zrel, .wdc, 5, 5, false, fun b1 b2 => .bbr0 b1 b2⟩]

/-- Opcodes 0x10 to 0x1F. -/
def opcodeRow1 : List Descriptor := [
  ⟨"BPL", .rel, .both, 2, 2, false, fun b1 _ => .bpl b1⟩,
  ⟨"ORA", .indy, .both, 5, 5, true, fun b1 _ => .oraIndy b1⟩,
  ⟨"ORA", .zpi, .cmos, 5, 5, false, fun b1 _ => .oraZpi b1⟩,
  ⟨"NOP", .imp, .wdc, 1, 1, false, fun _ _ => .nop13⟩,
  ⟨"TRB", .zpg, .cmos, 5, 5, false, fun b1 _ => .trbZpg b1⟩,
  ⟨"ORA", .zpx, .both, 4, 4, false, fun b1 _ => .oraZpx b1⟩,
  ⟨"ASL", .zpx, .both, 6, 6, false, fun b1 _ => .aslZpx b1⟩,
  ⟨"RMB1", .zpg, .cmos, 5, 5, false, fun b1 _ => .rmb1 b1⟩,
  ⟨"CLC", .imp, .both, 2, 2, false, fun _ _ => .clc⟩,
  ⟨"ORA", .absy, .both, 4, 4, true, fun b1 b2 => .oraAbsy (word b2 b1)⟩,
  ⟨"INC", .acc, .cmos, 2, 2, false, fun _ _ => .incAcc⟩,
  ⟨"NOP", .imp, .wdc, 1, 1, false, fun _ _ => .nop1B⟩,
  ⟨"TRB", .abs, .cmos, 6, 6, false, fun b1 b2 => .trbAbs (word b2 b1)⟩,
  ⟨"ORA", .absx, .both, 4, 4, true, fun b1 b2 => .oraAbsx (word b2 b1)⟩,
  ⟨"ASL", .absx, .both, 7, 7, false, fun b1 b2 => .aslAbsx (word b2 b1)⟩,
  ⟨"BBR1", .zrel, .wdc, 5, 5, false, fun b1 b2 => .bbr1 b1 b2⟩]

/-- Opcodes 0x20 to 0x2F. -/
def opcodeRow2 : List Descriptor := [
  ⟨"JSR", .abs, .both, 6, 6, false, fun b1 b2 => .jsr (word b2 b1)⟩,
  ⟨"AND", .indx, .both, 6, 6, false, fun b1 _ => .andIndx b1⟩,
  ⟨"NOP", .imm, .wdc, 2, 2, false, fun b1 _ => .nop22 b1⟩,
  ⟨"NOP", .imp, .wdc, 1, 1, false, fun _ _ => .nop23⟩,
  ⟨"BIT", .zpg, .both, 3, 3, false, fun b1 _ => .bitZpg b1⟩,
  ⟨"AND", .zpg, .both, 3, 3, false, fun b1 _ => .andZpg b1⟩,
  ⟨"ROL", .zpg, .both, 5, 5, false, fun b1 _ => .rolZpg b1⟩,
  ⟨"RMB2", .zpg, .cmos, 5, 5, false, fun b1 _ => .rmb2 b1⟩,
  ⟨"PLP", .imp, .both, 4, 4, false, fun _ _ => .plp⟩,
  ⟨"AND", .imm, .both, 2, 2, false, fun b1 _ => .andImm b1⟩,
  ⟨"ROL", .acc, .both, 2, 2, false, fun _ _ => .rolAcc⟩,
  ⟨"NOP", .imp, .wdc, 1, 1, false, fun _ _ => .nop2B⟩,
  ⟨"BIT", .abs, .both, 4, 4, false, fun b1 b2 => .bitAbs (word b2 b1)⟩,
  ⟨"AND", .abs, .both, 4, 4, false, fun b1 b2 => .andAbs (word b2 b1)⟩,
  ⟨"ROL", .abs, .both, 6, 6, false, fun b1 b2 => .rolAbs (word b2 b1)⟩,
  ⟨"BBR2", .zrel, .wdc, 5, 5, false, fun b1 b2 => .bbr2 b1 b2⟩]

/-- Opcodes 0x30 to 0x3F. -/
def opcodeRow3 : List Descriptor := [
  ⟨"BMI", .rel, .both, 2, 2, false, fun b1 _ => .bmi b1⟩,
  ⟨"AND", .indy, .both, 5, 5, true, fun b1 _ => .andIndy b1⟩,
  ⟨"AND", .zpi, .cmos, 5, 5, false, fun b1 _ => .andZpi b1⟩,
  ⟨"NOP", .imp, .wdc, 1, 1, false, fun _ _ => .nop33⟩,
  ⟨"BIT", .zpx, .wdc, 4, 4, false, fun b1 _ => .bitZpx b1⟩,
  ⟨"AND", .zpx, .both, 4, 4, false, fun b1 _ => .andZpx b1⟩,
  ⟨"ROL", .zpx, .both, 6, 6, false, fun b1 _ => .rolZpx b1⟩,
  ⟨"RMB3", .zpg, .cmos, 5, 5, false, fun b1 _ => .rmb3 b1⟩,
  ⟨"SEC", .imp, .both, 2, 2, false, fun _ _ => .sec⟩,
  ⟨"AND", .absy, .both, 4, 4, true, fun b1 b2 => .andAbsy (word b2 b1)⟩,
  ⟨"DEC", .acc, .cmos, 2, 2, false, fun _ _ => .decAcc⟩,
  ⟨"NOP", .imp, .wdc, 1, 1, false, fun _ _ => .nop3B⟩,
  ⟨"BIT", .absx, .wdc, 4, 4, true, fun b1 b2 => .bitAbsx (word b2 b1)⟩,
  ⟨"AND", .absx, .both, 4, 4, true, fun b1 b2 => .andAbsx (word b2 b1)⟩,
  ⟨"ROL", .absx, .both, 7, 7, false, fun b1 b2 => .rolAbsx (word b2 b1)⟩,
  ⟨"BBR3", .zrel, .wdc, 5, 5, false, fun b1 b2 => .bbr3 b1 b2⟩]

/-- Opcodes 0x40 to 0x4F. -/
def opcodeRow4 : List Descriptor := [
  ⟨"RTI", .imp, .both, 6, 6, false, fun _ _ => .rti⟩,
  ⟨"EOR", .indx, .both, 6, 6, false, fun b1 _ => .eorIndx b1⟩,
  ⟨"NOP", .imm, .wdc, 2, 2, false, fun b1 _ => .nop42 b1⟩,
  ⟨"NOP", .imp, .wdc, 1, 1, false, fun _ _ => .nop43⟩,
  ⟨"NOP", .zpg, .wdc, 3, 3, false, fun b1 _ => .nop44 b1⟩,
  ⟨"EOR", .zpg, .both, 3, 3, false, fun b1 _ => .eorZpg b1⟩,
  ⟨"LSR", .zpg, .both, 5, 5, false, fun b1 _ => .lsrZpg b1⟩,
  ⟨"RMB4", .zpg, .cmos, 5, 5, false, fun b1 _ => .rmb4 b1⟩,
  ⟨"PHA", .imp, .both, 3, 3, false, fun _ _ => .pha⟩,
  ⟨"EOR", .imm, .both, 2, 2, false, fun b1 _ => .eorImm b1⟩,
  ⟨"LSR", .acc, .both, 2, 2, false, fun _ _ => .lsrAcc⟩,
  ⟨"NOP", .imp, .wdc, 1, 1, false, fun _ _ => .nop4B⟩,
  ⟨"JMP", .abs, .both, 3, 3, false, fun b1 b2 => .jmpAbs (word b2 b1)⟩,
  ⟨"EOR", .abs, .both, 4, 4, false, fun b1 b2 => .eorAbs (word b2 b1)⟩,
  ⟨"LSR", .abs, .both, 6, 6, false, fun b1 b2 => .lsrAbs (word b2 b1)⟩,
  ⟨"BBR4", .zrel, .wdc, 5, 5, false, fun b1 b2 => .bbr4 b1 b2⟩]

/-- Opcodes 0x50 to 0x5F. -/
def opcodeRow5 : List Descriptor := [
  ⟨"BVC", .rel, .both, 2, 2, false, fun b1 _ => .bvc b1⟩,
  ⟨"EOR", .indy, .both, 5, 5, true, fun b1 _ => .eorIndy b1⟩,
  ⟨"EOR", .zpi, .cmos, 5, 5, false, fun b1 _ => .eorZpi b1⟩,
  ⟨"NOP", .imp, .wdc, 1, 1, false, fun _ _ => .nop53⟩,
  ⟨"NOP", .zpx, .wdc, 4, 4, false, fun b1 _ => .nop54 b1⟩,
  ⟨"EOR", .zpx, .both, 4, 4, false, fun b1 _ => .eorZpx b1⟩,
  ⟨"LSR", .zpx, .both, 6, 6, false, fun b1 _ => .lsrZpx b1⟩,
  ⟨"RMB5", .zpg, .cmos, 5, 5, false, fun b1 _ => .rmb5 b1⟩,
  ⟨"CLI", .imp, .both, 2, 2, false, fun _ _ => .cli⟩,
  ⟨"EOR", .absy, .both, 4, 4, true, fun b1 b2 => .eorAbsy (word b2 b1)⟩,
  ⟨"PHY", .imp, .cmos, 3, 3, false, fun _ _ => .phy⟩,
  ⟨"NOP", .imp, .wdc, 1, 1, false, fun _ _ => .nop5B⟩,
  ⟨"NOP", .abs, .wdc, 8, 8, false, fun b1 b2 => .nop5C (word b2 b1)⟩,
  ⟨"EOR", .absx, .both, 4, 4, true, fun b1 b2 => .eorAbsx (word b2 b1)⟩,
  ⟨"LSR", .absx, .both, 7, 7, false, fun b1 b2 => .lsrAbsx (word b2 b1)⟩,
  ⟨"BBR5", .zrel, .wdc, 5, 5, false, fun b1 b2 => .bbr5 b1 b2⟩]

/-- Opcodes 0x60 to 0x6F. -/
def opcodeRow6 : List Descriptor := [
  ⟨"RTS", .imp, .both, 6, 6, false, fun _ _ => .rts⟩,
  ⟨"ADC", .indx, .both, 6, 6, false, fun b1 _ => .adcIndx b1⟩,
  ⟨"NOP", .imm, .wdc, 2, 2, false, fun b1 _ => .nop62 b1⟩,
  ⟨"NOP", .imp, .wdc, 1, 1, false, fun _ _ => .nop63⟩,
  ⟨"STZ", .zpg, .cmos, 3, 3, false, fun b1 _ => .stzZpg b1⟩,
  ⟨"ADC", .zpg, .both, 3, 3, false, fun b1 _ => .adcZpg b1⟩,
  ⟨"ROR", .zpg, .both, 5, 5, false, fun b1 _ => .rorZpg b1⟩,
  ⟨"RMB6", .zpg, .cmos, 5, 5, false, fun b1 _ => .rmb6 b1⟩,
  ⟨"PLA", .imp, .both, 4, 4, false, fun _ _ => .pla⟩,
  ⟨"ADC", .imm, .both, 2, 2, false, fun b1 _ => .adcImm b1⟩,
  ⟨"ROR", .acc, .both, 2, 2, false, fun _ _ => .rorAcc⟩,
  ⟨"NOP", .imp, .wdc, 1, 1, false, fun _ _ => .nop6B⟩,
  ⟨"JMP", .ind, .both, 5, 6, false, fun b1 b2 => .jmpInd (word b2 b1)⟩,
  ⟨"ADC", .abs, .both, 4, 4, false, fun b1 b2 => .adcAbs (word b2 b1)⟩,
  ⟨"ROR", .abs, .both, 6, 6, false, fun b1 b2 => .rorAbs (word b2 b1)⟩,
  ⟨"BBR6", .zrel, .wdc, 5, 5, false, fun b1 b2 => .bbr6 b1 b2⟩]

/-- Opcodes 0x70 to 0x7F. -/
def opcodeRow7 : List Descriptor := [
  ⟨"BVS", .rel, .both, 2, 2, false, fun b1 _ => .bvs b1⟩,
  ⟨"ADC", .indy, .both, 5, 5, true, fun b1 _ => .adcIndy b1⟩,
  ⟨"ADC", .zpi, .cmos, 5, 5, false, fun b1 _ => .adcZpi b1⟩,
  ⟨"NOP", .imp, .wdc, 1, 1, false, fun _ _ => .nop73⟩,
  ⟨"STZ", .zpx, .cmos, 4, 4, false, fun b1 _ => .stzZpx b1⟩,
  ⟨"ADC", .zpx, .both, 4, 4, false, fun b1 _ => .adcZpx b1⟩,
  ⟨"ROR", .zpx, .both, 6, 6, false, fun b1 _ => .rorZpx b1⟩,
  ⟨"RMB7", .zpg, .cmos, 5, 5, false, fun b1 _ => .rmb7 b1⟩,
  ⟨"SEI", .imp, .both, 2, 2, false, fun _ _ => .sei⟩,
  ⟨"ADC", .absy, .both, 4, 4, true, fun b1 b2 => .adcAbsy (word b2 b1)⟩,
  ⟨"PLY", .imp, .cmos, 4, 4, false, fun _ _ => .ply⟩,
  ⟨"NOP", .imp, .wdc, 1, 1, false, fun _ _ => .nop7B⟩,
  ⟨"JMP", .iax, .cmos, 6, 6, false, fun b1 b2 => .jmpIax (word b2 b1)⟩,
  ⟨"ADC", .absx, .both, 4, 4, true, fun b1 b2 => .adcAbsx (word b2 b1)⟩,
  ⟨"ROR", .absx, .both, 7, 7, false, fun b1 b2 => .rorAbsx (word b2 b1)⟩,
  ⟨"BBR7", .zrel, .wdc, 5, 5, false, fun b1 b2 => .bbr7 b1 b2⟩]

/-- Opcodes 0x80 to 0x8F. -/
def opcodeRow8 : List Descriptor := [
  ⟨"BRA", .rel, .cmos, 2, 2, false, fun b1 _ => .bra b1⟩,
  ⟨"STA", .indx, .both, 6, 6, false, fun b1 _ => .staIndx b1⟩,
  ⟨"NOP", .imm, .wdc, 2, 2, false, fun b1 _ => .nop82 b1⟩,
  ⟨"NOP", .imp, .wdc, 1, 1, false, fun _ _ => .nop83⟩,
  ⟨"STY", .zpg, .both, 3, 3, false, fun b1 _ => .styZpg b1⟩,
  ⟨"STA", .zpg, .both, 3, 3, false, fun b1 _ => .staZpg b1⟩,
  ⟨"STX", .zpg, .both, 3, 3, false, fun b1 _ => .stxZpg b1⟩,
  ⟨"SMB0", .zpg, .cmos, 5, 5, false, fun b1 _ => .smb0 b1⟩,
  ⟨"DEY", .imp, .both, 2, 2, false, fun _ _ => .dey⟩,
  ⟨"BIT", .imm, .cmos, 2, 2, false, fun b1 _ => .bitImm b1⟩,
  ⟨"TXA", .imp, .both, 2, 2, false, fun _ _ => .txa⟩,
  ⟨"NOP", .imp, .wdc, 1, 1, false, fun _ _ => .nop8B⟩,
  ⟨"STY", .abs, .both, 4, 4, false, fun b1 b2 => .styAbs (word b2 b1)⟩,
  ⟨"STA", .abs, .both, 4, 4, false, fun b1 b2 => .staAbs (word b2 b1)⟩,
  ⟨"STX", .abs, .both, 4, 4, false, fun b1 b2 => .stxAbs (word b2 b1)⟩,
  ⟨"BBS0", .zrel, .wdc, 5, 5, false, fun b1 b2 => .bbs0 b1 b2⟩]

/-- Opcodes 0x90 to 0x9F. -/
def opcodeRow9 : List Descriptor := [
  ⟨"BCC", .rel, .both, 2, 2, false, fun b1 _ => .bcc b1⟩,
  ⟨"STA", .indy, .both, 6, 6, false, fun b1 _ => .staIndy b1⟩,
  ⟨"STA", .zpi, .cmos, 5, 5, false, fun b1 _ => .staZpi b1⟩,
  ⟨"NOP", .imp, .wdc, 1, 1, false, fun _ _ => .nop93⟩,
  ⟨"STY", .zpx, .both, 4, 4, false, fun b1 _ => .styZpx b1⟩,
  ⟨"STA", .zpx, .both, 4, 4, false, fun b1 _ => .staZpx b1⟩,
  ⟨"STX", .zpy, .both, 4, 4, false, fun b1 _ => .stxZpy b1⟩,
  ⟨"SMB1", .zpg, .cmos, 5, 5, false, fun b1 _ => .smb1 b1⟩,
  ⟨"TYA", .imp, .both, 2, 2, false, fun _ _ => .tya⟩,
  ⟨"STA", .absy, .both, 5, 5, false, fun b1 b2 => .staAbsy (word b2 b1)⟩,
  ⟨"TXS", .imp, .both, 2, 2, false, fun _ _ => .txs⟩,
  ⟨"NOP", .imp, .wdc, 1, 1, false, fun _ _ => .nop9B⟩,
  ⟨"STZ", .abs, .cmos, 4, 4, false, fun b1 b2 => .stzAbs (word b2 b1)⟩,
  ⟨"STA", .absx, .both, 5, 5, false, fun b1 b2 => .staAbsx (word b2 b1)⟩,
  ⟨"STZ", .absx, .cmos, 5, 5, false, fun b1 b2 => .stzAbsx (word b2 b1)⟩,
  ⟨"BBS1", .zrel, .wdc, 5, 5, false, fun b1 b2 => .bbs1 b1 b2⟩]

/-- Opcodes 0xA0 to 0xAF. -/
def opcodeRowA : List Descriptor := [
  ⟨"LDY", .imm, .both, 2, 2, false, fun b1 _ => .ldyImm b1⟩,
  ⟨"LDA", .indx, .both, 6, 6, false, fun b1 _ => .ldaIndx b1⟩,
  ⟨"LDX", .imm, .both, 2, 2, false, fun b1 _ => .ldxImm b1⟩,
  ⟨"NOP", .imp, .wdc, 1, 1, false, fun _ _ => .nopA3⟩,
  ⟨"LDY", .zpg, .both, 3, 3, false, fun b1 _ => .ldyZpg b1⟩,
  ⟨"LDA", .zpg, .both, 3, 3, false, fun b1 _ => .ldaZpg b1⟩,
  ⟨"LDX", .zpg, .both, 3, 3, false, fun b1 _ => .ldxZpg b1⟩,
  ⟨"SMB2", .zpg, .cmos, 5, 5, false, fun b1 _ => .smb2 b1⟩,
  ⟨"TAY", .imp, .both, 2, 2, false, fun _ _ => .tay⟩,
  ⟨"LDA", .imm, .both, 2, 2, false, fun b1 _ => .ldaImm b1⟩,
  ⟨"TAX", .imp, .both, 2, 2, false, fun _ _ => .tax⟩,
  ⟨"NOP", .imp, .wdc, 1, 1, false, fun _ _ => .nopAB⟩,
  ⟨"LDY", .abs, .both, 4, 4, false, fun b1 b2 => .ldyAbs (word b2 b1)⟩,
  ⟨"LDA", .abs, .both, 4, 4, false, fun b1 b2 => .ldaAbs (word b2 b1)⟩,
  ⟨"LDX", .abs, .both, 4, 4, false, fun b1 b2 => .ldxAbs (word b2 b1)⟩,
  ⟨"BBS2", .zrel, .wdc, 5, 5, false, fun b1 b2 => .bbs2 b1 b2⟩]

/-- Opcodes 0xB0 to 0xBF. -/
def opcodeRowB : List Descriptor := [
  ⟨"BCS", .rel, .both, 2, 2, false, fun b1 _ => .bcs b1⟩,
  ⟨"LDA", .indy, .both, 5, 5, true, fun b1 _ => .ldaIndy b1⟩,
  ⟨"LDA", .zpi, .cmos, 5, 5, false, fun b1 _ => .ldaZpi b1⟩,
  ⟨"NOP", .imp, .wdc, 1, 1, false, fun _ _ => .nopB3⟩,
  ⟨"LDY", .zpx, .both, 4, 4, false, fun b1 _ => .ldyZpx b1⟩,
  ⟨"LDA", .zpx, .both, 4, 4, false, fun b1 _ => .ldaZpx b1⟩,
  ⟨"LDX", .zpy, .both, 4, 4, false, fun b1 _ => .ldxZpy b1⟩,
  ⟨"SMB3", .zpg, .cmos, 5, 5, false, fun b1 _ => .smb3 b1⟩,
  ⟨"CLV", .imp, .both, 2, 2, false, fun _ _ => .clv⟩,
  ⟨"LDA", .absy, .both, 4, 4, true, fun b1 b2 => .ldaAbsy (word b2 b1)⟩,
  ⟨"TSX", .imp, .both, 2, 2, false, fun _ _ => .tsx⟩,
  ⟨"NOP", .imp, .wdc, 1, 1, false, fun _ _ => .nopBB⟩,
  ⟨"LDY", .absx, .both, 4, 4, true, fun b1 b2 => .ldyAbsx (word b2 b1)⟩,
  ⟨"LDA", .absx, .both, 4, 4, true, fun b1 b2 => .ldaAbsx (word b2 b1)⟩,
  ⟨"LDX", .absy, .both, 4, 4, true, fun b1 b2 => .ldxAbsy (word b2 b1)⟩,
  ⟨"BBS3", .zrel, .wdc, 5, 5, false, fun b1 b2 => .bbs3 b1 b2⟩]

/-- Opcodes 0xC0 to 0xCF. -/
def opcodeRowC : List Descriptor := [
  ⟨"CPY", .imm, .both, 2, 2, false, fun b1 _ => .cpyImm b1⟩,
  ⟨"CMP", .indx, .both, 6, 6, false, fun b1 _ => .cmpIndx b1⟩,
  ⟨"NOP", .imm, .wdc, 2, 2, false, fun b1 _ => .nopC2 b1⟩,
  ⟨"NOP", .imp, .wdc, 1, 1, false, fun _ _ => .nopC3⟩,
  ⟨"CPY", .zpg, .both, 3, 3, false, fun b1 _ => .cpyZpg b1⟩,
  ⟨"CMP", .zpg, .both, 3, 3, false, fun b1 _ => .cmpZpg b1⟩,
  ⟨"DEC", .zpg, .both, 5, 5, false, fun b1 _ => .decZpg b1⟩,
  ⟨"SMB4", .zpg, .cmos, 5, 5, false, fun b1 _ => .smb4 b1⟩,
  ⟨"INY", .imp, .both, 2, 2, false, fun _ _ => .iny⟩,
  ⟨"CMP", .imm, .both, 2, 2, false, fun b1 _ => .cmpImm b1⟩,
  ⟨"DEX", .imp, .both, 2, 2, false, fun _ _ => .dex⟩,
  ⟨"WAI", .imp, .cmos, 3, 3, false, fun _ _ => .wai⟩,
  ⟨"CPY", .abs, .both, 4, 4, false, fun b1 b2 => .cpyAbs (word b2 b1)⟩,
  ⟨"CMP", .abs, .both, 4, 4, false, fun b1 b2 => .cmpAbs (word b2 b1)⟩,
  ⟨"DEC", .abs, .both, 6, 6, false, fun b1 b2 => .decAbs (word b2 b1)⟩,
  ⟨"BBS4", .zrel, .wdc, 5, 5, false, fun b1 b2 => .bbs4 b1 b2⟩]

/-- Opcodes 0xD0 to 0xDF. -/
def opcodeRowD : List Descriptor := [
  ⟨"BNE", .rel, .both, 2, 2, false, fun b1 _ => .bne b1⟩,
  ⟨"CMP", .indy, .both, 5, 5, true, fun b1 _ => .cmpIndy b1⟩,
  ⟨"CMP", .zpi, .cmos, 5, 5, false, fun b1 _ => .cmpZpi b1⟩,
  ⟨"NOP", .imp, .wdc, 1, 1, false, fun _ _ => .nopD3⟩,
  ⟨"NOP", .zpx, .wdc, 4, 4, false, fun b1 _ => .nopD4 b1⟩,
  ⟨"CMP", .zpx, .both, 4, 4, false, fun b1 _ => .cmpZpx b1⟩,
  ⟨"DEC", .zpx, .both, 6, 6, false, fun b1 _ => .decZpx b1⟩,
  ⟨"SMB5", .zpg, .cmos, 5, 5, false, fun b1 _ => .smb5 b1⟩,
  ⟨"CLD", .imp, .both, 2, 2, false, fun _ _ => .cld⟩,
  ⟨"CMP", .absy, .both, 4, 4, true, fun b1 b2 => .cmpAbsy (word b2 b1)⟩,
  ⟨"PHX", .imp, .cmos, 3, 3, false, fun _ _ => .phx⟩,
  ⟨"STP", .imp, .wdc, 3, 3, false, fun _ _ => .stp⟩,
  ⟨"NOP", .abs, .wdc, 4, 4, false, fun b1 b2 => .nopDC (word b2 b1)⟩,
  ⟨"CMP", .absx, .both, 4, 4, true, fun b1 b2 => .cmpAbsx (word b2 b1)⟩,
  ⟨"DEC", .absx, .both, 7, 7, false, fun b1 b2 => .decAbsx (word b2 b1)⟩,
  ⟨"BBS5", .zrel, .wdc, 5, 5, false, fun b1 b2 => .bbs5 b1 b2⟩]

/-- Opcodes 0xE0 to 0xEF. -/
def opcodeRowE : List Descriptor := [
  ⟨"CPX", .imm, .both, 2, 2, false, fun b1 _ => .cpxImm b1⟩,
  ⟨"SBC", .indx, .both, 6, 6, false, fun b1 _ => .sbcIndx b1⟩,
  ⟨"NOP", .imm, .wdc, 2, 2, false, fun b1 _ => .nopE2 b1⟩,
  ⟨"NOP", .imp, .wdc, 1, 1, false, fun _ _ => .nopE3⟩,
  ⟨"CPX", .zpg, .both, 3, 3, false, fun b1 _ => .cpxZpg b1⟩,
  ⟨"SBC", .zpg, .both, 3, 3, false, fun b1 _ => .sbcZpg b1⟩,
  ⟨"INC", .zpg, .both, 5, 5, false, fun b1 _ => .incZpg b1⟩,
  ⟨"SMB6", .zpg, .cmos, 5, 5, false, fun b1 _ => .smb6 b1⟩,
  ⟨"INX", .imp, .both, 2, 2, false, fun _ _ => .inx⟩,
  ⟨"SBC", .imm, .both, 2, 2, false, fun b1 _ => .sbcImm b1⟩,
  ⟨"NOP", .imp, .both, 2, 2, false, fun _ _ => .nop⟩,
  ⟨"NOP", .imp, .wdc, 1, 1, false, fun _ _ => .nopEB⟩,
  ⟨"CPX", .abs, .both, 4, 4, false, fun b1 b2 => .cpxAbs (word b2 b1)⟩,
  ⟨"SBC", .abs, .both, 4, 4, false, fun b1 b2 => .sbcAbs (word b2 b1)⟩,
  ⟨"INC", .abs, .both, 6, 6, false, fun b1 b2 => .incAbs (word b2 b1)⟩,
  ⟨"BBS6", .zrel, .wdc, 5, 5, false, fun b1 b2 => .bbs6 b1 b2⟩]

/-- Opcodes 0xF0 to 0xFF. -/
def opcodeRowF : List Descriptor := [
  ⟨"BEQ", .rel, .both, 2, 2, false, fun b1 _ => .beq b1⟩,
  ⟨"SBC", .indy, .both, 5, 5, true, fun b1 _ => .sbcIndy b1⟩,
  ⟨"SBC", .zpi, .cmos, 5, 5, false, fun b1 _ => .sbcZpi b1⟩,
  ⟨"NOP", .imp, .wdc, 1, 1, false, fun _ _ => .nopF3⟩,
  ⟨"NOP", .zpx, .wdc, 4, 4, false, fun b1 _ => .nopF4 b1⟩,
  ⟨"SBC", .zpx, .both, 4, 4, false, fun b1 _ => .sbcZpx b1⟩,
  ⟨"INC", .zpx, .both, 6, 6, false, fun b1 _ => .incZpx b1⟩,
  ⟨"SMB7", .zpg, .cmos, 5, 5, false, fun b1 _ => .smb7 b1⟩,
  ⟨"SED", .imp, .both, 2, 2, false, fun _ _ => .sed⟩,
  ⟨"SBC", .absy, .both, 4, 4, true, fun b1 b2 => .sbcAbsy (word b2 b1)⟩,
  ⟨"PLX", .imp, .cmos, 4, 4, false, fun _ _ => .plx⟩,
  ⟨"NOP", .imp, .wdc, 1, 1, false, fun _ _ => .nopFB⟩,
  ⟨"NOP", .abs, .wdc, 4, 4, false, fun b1 b2 => .nopFC (word b2 b1)⟩,
  ⟨"SBC", .absx, .both, 4, 4, true, fun b1 b2 => .sbcAbsx (word b2 b1)⟩,
  ⟨"INC", .absx, .both, 7, 7, false, fun b1 b2 => .incAbsx (word b2 b1)⟩,
  ⟨"BBS7", .zrel, .wdc, 5, 5, false, fun b1 b2 => .bbs7 b1 b2⟩]

/-- The rows of the opcode table, by the high nibble of the opcode. -/
def opcodeRows : List (List Descriptor) := [
  opcodeRow0, opcodeRow1, opcodeRow2, opcodeRow3,
  opcodeRow4, opcodeRow5, opcodeRow6, opcodeRow7,
  opcodeRow8, opcodeRow9, opcodeRowA, opcodeRowB,
  opcodeRowC, opcodeRowD, opcodeRowE, opcodeRowF]

/-- The table's entry for an opcode byte, whatever the configuration. -/
def tableEntry (op : Byte) : Option Descriptor :=
  (opcodeRows[op.toNat / 16]?).bind fun row => row[op.toNat % 16]?

/-- Whether a configuration's table holds an opcode of this availability (R84 to R86, R270). -/
def Availability.definedIn (cfg : Config) : Availability → Bool
  | .both => true
  | .cmos => cfg.variant == .cmos
  | .wdc => cfg.variant == .cmos && cfg.wdcExtras

/-- The descriptor of an opcode in a configuration; `none` where the opcode is illegal (R83, R92). -/
def descriptor (cfg : Config) (op : Byte) : Option Descriptor :=
  (tableEntry op).filter fun d => d.avail.definedIn cfg

/-- The base cycle count of an opcode: `CYCLE_TABLE[VARIANT][op]` (R351). -/
def baseCycles (cfg : Config) (op : Byte) : Nat :=
  match cfg.cycleTable with
  | .implementation => Config.implBaseCycles cfg.variant op
  | .reference =>
    match tableEntry op with
    | none => 0
    | some d =>
      match cfg.variant with
      | .nmos => d.nmosCycles
      | .cmos => d.cmosCycles

/-- Whether an opcode is in `PAGE_CROSS_SET` (R352). -/
def pageCrossSensitive (cfg : Config) (op : Byte) : Bool :=
  match cfg.pageCrossSet with
  | .implementation => Config.implPageCross op
  | .reference =>
    match tableEntry op with
    | none => false
    | some d => d.pageCross

/-- The host's opcode-table query: the mnemonic and mode of an opcode, `("???", "imp")` for an undefined one (R96). -/
def tableQuery (cfg : Config) (op : Byte) : String × Mode :=
  match descriptor cfg op with
  | some d => (d.mnemonic, d.mode)
  | none => ("???", .imp)

/-- The length of the instruction with an opcode byte. An opcode with no descriptor has no length of its own: under the
permissive policy it counts as one byte, under the strict one there is none (R82). -/
def instructionLength (cfg : Config) (op : Byte) : Option Nat :=
  match descriptor cfg op with
  | some d => some d.mode.length
  | none =>
    match cfg.illegalPolicy with
    | .permissive => some 1
    | .strict => none

/-- The opcode byte of an instruction (R84 to R86). -/
def Instr.opcode : Instr → Byte
  | .brk => 0x00
  | .oraIndx _ => 0x01
  | .nop02 _ => 0x02
  | .nop03 => 0x03
  | .tsbZpg _ => 0x04
  | .oraZpg _ => 0x05
  | .aslZpg _ => 0x06
  | .rmb0 _ => 0x07
  | .php => 0x08
  | .oraImm _ => 0x09
  | .aslAcc => 0x0A
  | .nop0B => 0x0B
  | .tsbAbs _ => 0x0C
  | .oraAbs _ => 0x0D
  | .aslAbs _ => 0x0E
  | .bbr0 _ _ => 0x0F
  | .bpl _ => 0x10
  | .oraIndy _ => 0x11
  | .oraZpi _ => 0x12
  | .nop13 => 0x13
  | .trbZpg _ => 0x14
  | .oraZpx _ => 0x15
  | .aslZpx _ => 0x16
  | .rmb1 _ => 0x17
  | .clc => 0x18
  | .oraAbsy _ => 0x19
  | .incAcc => 0x1A
  | .nop1B => 0x1B
  | .trbAbs _ => 0x1C
  | .oraAbsx _ => 0x1D
  | .aslAbsx _ => 0x1E
  | .bbr1 _ _ => 0x1F
  | .jsr _ => 0x20
  | .andIndx _ => 0x21
  | .nop22 _ => 0x22
  | .nop23 => 0x23
  | .bitZpg _ => 0x24
  | .andZpg _ => 0x25
  | .rolZpg _ => 0x26
  | .rmb2 _ => 0x27
  | .plp => 0x28
  | .andImm _ => 0x29
  | .rolAcc => 0x2A
  | .nop2B => 0x2B
  | .bitAbs _ => 0x2C
  | .andAbs _ => 0x2D
  | .rolAbs _ => 0x2E
  | .bbr2 _ _ => 0x2F
  | .bmi _ => 0x30
  | .andIndy _ => 0x31
  | .andZpi _ => 0x32
  | .nop33 => 0x33
  | .bitZpx _ => 0x34
  | .andZpx _ => 0x35
  | .rolZpx _ => 0x36
  | .rmb3 _ => 0x37
  | .sec => 0x38
  | .andAbsy _ => 0x39
  | .decAcc => 0x3A
  | .nop3B => 0x3B
  | .bitAbsx _ => 0x3C
  | .andAbsx _ => 0x3D
  | .rolAbsx _ => 0x3E
  | .bbr3 _ _ => 0x3F
  | .rti => 0x40
  | .eorIndx _ => 0x41
  | .nop42 _ => 0x42
  | .nop43 => 0x43
  | .nop44 _ => 0x44
  | .eorZpg _ => 0x45
  | .lsrZpg _ => 0x46
  | .rmb4 _ => 0x47
  | .pha => 0x48
  | .eorImm _ => 0x49
  | .lsrAcc => 0x4A
  | .nop4B => 0x4B
  | .jmpAbs _ => 0x4C
  | .eorAbs _ => 0x4D
  | .lsrAbs _ => 0x4E
  | .bbr4 _ _ => 0x4F
  | .bvc _ => 0x50
  | .eorIndy _ => 0x51
  | .eorZpi _ => 0x52
  | .nop53 => 0x53
  | .nop54 _ => 0x54
  | .eorZpx _ => 0x55
  | .lsrZpx _ => 0x56
  | .rmb5 _ => 0x57
  | .cli => 0x58
  | .eorAbsy _ => 0x59
  | .phy => 0x5A
  | .nop5B => 0x5B
  | .nop5C _ => 0x5C
  | .eorAbsx _ => 0x5D
  | .lsrAbsx _ => 0x5E
  | .bbr5 _ _ => 0x5F
  | .rts => 0x60
  | .adcIndx _ => 0x61
  | .nop62 _ => 0x62
  | .nop63 => 0x63
  | .stzZpg _ => 0x64
  | .adcZpg _ => 0x65
  | .rorZpg _ => 0x66
  | .rmb6 _ => 0x67
  | .pla => 0x68
  | .adcImm _ => 0x69
  | .rorAcc => 0x6A
  | .nop6B => 0x6B
  | .jmpInd _ => 0x6C
  | .adcAbs _ => 0x6D
  | .rorAbs _ => 0x6E
  | .bbr6 _ _ => 0x6F
  | .bvs _ => 0x70
  | .adcIndy _ => 0x71
  | .adcZpi _ => 0x72
  | .nop73 => 0x73
  | .stzZpx _ => 0x74
  | .adcZpx _ => 0x75
  | .rorZpx _ => 0x76
  | .rmb7 _ => 0x77
  | .sei => 0x78
  | .adcAbsy _ => 0x79
  | .ply => 0x7A
  | .nop7B => 0x7B
  | .jmpIax _ => 0x7C
  | .adcAbsx _ => 0x7D
  | .rorAbsx _ => 0x7E
  | .bbr7 _ _ => 0x7F
  | .bra _ => 0x80
  | .staIndx _ => 0x81
  | .nop82 _ => 0x82
  | .nop83 => 0x83
  | .styZpg _ => 0x84
  | .staZpg _ => 0x85
  | .stxZpg _ => 0x86
  | .smb0 _ => 0x87
  | .dey => 0x88
  | .bitImm _ => 0x89
  | .txa => 0x8A
  | .nop8B => 0x8B
  | .styAbs _ => 0x8C
  | .staAbs _ => 0x8D
  | .stxAbs _ => 0x8E
  | .bbs0 _ _ => 0x8F
  | .bcc _ => 0x90
  | .staIndy _ => 0x91
  | .staZpi _ => 0x92
  | .nop93 => 0x93
  | .styZpx _ => 0x94
  | .staZpx _ => 0x95
  | .stxZpy _ => 0x96
  | .smb1 _ => 0x97
  | .tya => 0x98
  | .staAbsy _ => 0x99
  | .txs => 0x9A
  | .nop9B => 0x9B
  | .stzAbs _ => 0x9C
  | .staAbsx _ => 0x9D
  | .stzAbsx _ => 0x9E
  | .bbs1 _ _ => 0x9F
  | .ldyImm _ => 0xA0
  | .ldaIndx _ => 0xA1
  | .ldxImm _ => 0xA2
  | .nopA3 => 0xA3
  | .ldyZpg _ => 0xA4
  | .ldaZpg _ => 0xA5
  | .ldxZpg _ => 0xA6
  | .smb2 _ => 0xA7
  | .tay => 0xA8
  | .ldaImm _ => 0xA9
  | .tax => 0xAA
  | .nopAB => 0xAB
  | .ldyAbs _ => 0xAC
  | .ldaAbs _ => 0xAD
  | .ldxAbs _ => 0xAE
  | .bbs2 _ _ => 0xAF
  | .bcs _ => 0xB0
  | .ldaIndy _ => 0xB1
  | .ldaZpi _ => 0xB2
  | .nopB3 => 0xB3
  | .ldyZpx _ => 0xB4
  | .ldaZpx _ => 0xB5
  | .ldxZpy _ => 0xB6
  | .smb3 _ => 0xB7
  | .clv => 0xB8
  | .ldaAbsy _ => 0xB9
  | .tsx => 0xBA
  | .nopBB => 0xBB
  | .ldyAbsx _ => 0xBC
  | .ldaAbsx _ => 0xBD
  | .ldxAbsy _ => 0xBE
  | .bbs3 _ _ => 0xBF
  | .cpyImm _ => 0xC0
  | .cmpIndx _ => 0xC1
  | .nopC2 _ => 0xC2
  | .nopC3 => 0xC3
  | .cpyZpg _ => 0xC4
  | .cmpZpg _ => 0xC5
  | .decZpg _ => 0xC6
  | .smb4 _ => 0xC7
  | .iny => 0xC8
  | .cmpImm _ => 0xC9
  | .dex => 0xCA
  | .wai => 0xCB
  | .cpyAbs _ => 0xCC
  | .cmpAbs _ => 0xCD
  | .decAbs _ => 0xCE
  | .bbs4 _ _ => 0xCF
  | .bne _ => 0xD0
  | .cmpIndy _ => 0xD1
  | .cmpZpi _ => 0xD2
  | .nopD3 => 0xD3
  | .nopD4 _ => 0xD4
  | .cmpZpx _ => 0xD5
  | .decZpx _ => 0xD6
  | .smb5 _ => 0xD7
  | .cld => 0xD8
  | .cmpAbsy _ => 0xD9
  | .phx => 0xDA
  | .stp => 0xDB
  | .nopDC _ => 0xDC
  | .cmpAbsx _ => 0xDD
  | .decAbsx _ => 0xDE
  | .bbs5 _ _ => 0xDF
  | .cpxImm _ => 0xE0
  | .sbcIndx _ => 0xE1
  | .nopE2 _ => 0xE2
  | .nopE3 => 0xE3
  | .cpxZpg _ => 0xE4
  | .sbcZpg _ => 0xE5
  | .incZpg _ => 0xE6
  | .smb6 _ => 0xE7
  | .inx => 0xE8
  | .sbcImm _ => 0xE9
  | .nop => 0xEA
  | .nopEB => 0xEB
  | .cpxAbs _ => 0xEC
  | .sbcAbs _ => 0xED
  | .incAbs _ => 0xEE
  | .bbs6 _ _ => 0xEF
  | .beq _ => 0xF0
  | .sbcIndy _ => 0xF1
  | .sbcZpi _ => 0xF2
  | .nopF3 => 0xF3
  | .nopF4 _ => 0xF4
  | .sbcZpx _ => 0xF5
  | .incZpx _ => 0xF6
  | .smb7 _ => 0xF7
  | .sed => 0xF8
  | .sbcAbsy _ => 0xF9
  | .plx => 0xFA
  | .nopFB => 0xFB
  | .nopFC _ => 0xFC
  | .sbcAbsx _ => 0xFD
  | .incAbsx _ => 0xFE
  | .bbs7 _ _ => 0xFF

end Sys2Proof
end

