-- ==== Sys2Proof/WellFormed.lean ====
section
/-! DEFINITION. When an instruction is well formed: its opcode has a descriptor in the configuration's table. Every
operand value is legal in every mode (30_encoding.md R93), so the variant and the optional set are the only checks
(R84 to R86, R270). -/

namespace Sys2Proof

/-- The instruction is one of the configuration's table (R83 to R86, R93). -/
def Instr.wellFormed (cfg : Config) (i : Instr) : Bool := (descriptor cfg i.opcode).isSome

end Sys2Proof
end

