-- ==== Sys2Proof/Decode.lean ====
section
/-! DEFINITION. The decoder, total on any bytes and rejecting by name, and after it the encoder
(30_encoding.md R80 to R86, R89, R92). -/

namespace Sys2Proof

/-- Why bytes are no instruction. -/
inductive DecodeError where
  /-- the configuration's table has no descriptor for the opcode byte (R92) -/
  | undefinedOpcode (op : Byte)
  /-- fewer bytes than the opcode's mode takes -/
  | truncated
  deriving DecidableEq, Repr

/-- Decode an opcode byte and the two bytes after it (R89: a table lookup on the opcode byte; no other state takes
part). -/
def decode (cfg : Config) (op b1 b2 : Byte) : Except DecodeError Instr :=
  match descriptor cfg op with
  | none => .error (.undefinedOpcode op)
  | some d => .ok (d.build b1 b2)

/-- Decode the instruction at the head of a list of bytes, with the bytes after it (R80, R82). -/
def decodeBytes (cfg : Config) : List Byte → Except DecodeError (Instr × List Byte)
  | [] => .error .truncated
  | op :: rest =>
    match descriptor cfg op with
    | none => .error (.undefinedOpcode op)
    | some d =>
      if rest.length < d.mode.operandBytes then .error .truncated
      else .ok (d.build (rest.getD 0 0) (rest.getD 1 0), rest.drop d.mode.operandBytes)

/-- The instruction the decoder reads from the bits `w` of a table row of `nbits` bits: bits 7..0 are the opcode byte,
15..8 the first operand byte, 23..16 the second; bits from `nbits` up are 0. The table's rows are those of all
variants together, so the configuration is the one that holds all 256 (log entry 11). -/
def decodeTableWord (nbits w : Nat) : Option Instr :=
  let bits := w % 2 ^ nbits
  match decode .allOpcodes (BitVec.ofNat 8 bits) (BitVec.ofNat 8 (bits / 256)) (BitVec.ofNat 8 (bits / 65536)) with
  | .ok i => some i
  | .error _ => none

/-- The operand bytes of an instruction, in ascending address order (R80, R81). -/
def Instr.operands : Instr → List Byte
  | .brk => []
  | .oraIndx z => [z]
  | .nop02 v => [v]
  | .nop03 => []
  | .tsbZpg z => [z]
  | .oraZpg z => [z]
  | .aslZpg z => [z]
  | .rmb0 z => [z]
  | .php => []
  | .oraImm v => [v]
  | .aslAcc => []
  | .nop0B => []
  | .tsbAbs w => [loByte w, hiByte w]
  | .oraAbs w => [loByte w, hiByte w]
  | .aslAbs w => [loByte w, hiByte w]
  | .bbr0 z off => [z, off]
  | .bpl off => [off]
  | .oraIndy z => [z]
  | .oraZpi z => [z]
  | .nop13 => []
  | .trbZpg z => [z]
  | .oraZpx z => [z]
  | .aslZpx z => [z]
  | .rmb1 z => [z]
  | .clc => []
  | .oraAbsy w => [loByte w, hiByte w]
  | .incAcc => []
  | .nop1B => []
  | .trbAbs w => [loByte w, hiByte w]
  | .oraAbsx w => [loByte w, hiByte w]
  | .aslAbsx w => [loByte w, hiByte w]
  | .bbr1 z off => [z, off]
  | .jsr w => [loByte w, hiByte w]
  | .andIndx z => [z]
  | .nop22 v => [v]
  | .nop23 => []
  | .bitZpg z => [z]
  | .andZpg z => [z]
  | .rolZpg z => [z]
  | .rmb2 z => [z]
  | .plp => []
  | .andImm v => [v]
  | .rolAcc => []
  | .nop2B => []
  | .bitAbs w => [loByte w, hiByte w]
  | .andAbs w => [loByte w, hiByte w]
  | .rolAbs w => [loByte w, hiByte w]
  | .bbr2 z off => [z, off]
  | .bmi off => [off]
  | .andIndy z => [z]
  | .andZpi z => [z]
  | .nop33 => []
  | .bitZpx z => [z]
  | .andZpx z => [z]
  | .rolZpx z => [z]
  | .rmb3 z => [z]
  | .sec => []
  | .andAbsy w => [loByte w, hiByte w]
  | .decAcc => []
  | .nop3B => []
  | .bitAbsx w => [loByte w, hiByte w]
  | .andAbsx w => [loByte w, hiByte w]
  | .rolAbsx w => [loByte w, hiByte w]
  | .bbr3 z off => [z, off]
  | .rti => []
  | .eorIndx z => [z]
  | .nop42 v => [v]
  | .nop43 => []
  | .nop44 z => [z]
  | .eorZpg z => [z]
  | .lsrZpg z => [z]
  | .rmb4 z => [z]
  | .pha => []
  | .eorImm v => [v]
  | .lsrAcc => []
  | .nop4B => []
  | .jmpAbs w => [loByte w, hiByte w]
  | .eorAbs w => [loByte w, hiByte w]
  | .lsrAbs w => [loByte w, hiByte w]
  | .bbr4 z off => [z, off]
  | .bvc off => [off]
  | .eorIndy z => [z]
  | .eorZpi z => [z]
  | .nop53 => []
  | .nop54 z => [z]
  | .eorZpx z => [z]
  | .lsrZpx z => [z]
  | .rmb5 z => [z]
  | .cli => []
  | .eorAbsy w => [loByte w, hiByte w]
  | .phy => []
  | .nop5B => []
  | .nop5C w => [loByte w, hiByte w]
  | .eorAbsx w => [loByte w, hiByte w]
  | .lsrAbsx w => [loByte w, hiByte w]
  | .bbr5 z off => [z, off]
  | .rts => []
  | .adcIndx z => [z]
  | .nop62 v => [v]
  | .nop63 => []
  | .stzZpg z => [z]
  | .adcZpg z => [z]
  | .rorZpg z => [z]
  | .rmb6 z => [z]
  | .pla => []
  | .adcImm v => [v]
  | .rorAcc => []
  | .nop6B => []
  | .jmpInd w => [loByte w, hiByte w]
  | .adcAbs w => [loByte w, hiByte w]
  | .rorAbs w => [loByte w, hiByte w]
  | .bbr6 z off => [z, off]
  | .bvs off => [off]
  | .adcIndy z => [z]
  | .adcZpi z => [z]
  | .nop73 => []
  | .stzZpx z => [z]
  | .adcZpx z => [z]
  | .rorZpx z => [z]
  | .rmb7 z => [z]
  | .sei => []
  | .adcAbsy w => [loByte w, hiByte w]
  | .ply => []
  | .nop7B => []
  | .jmpIax w => [loByte w, hiByte w]
  | .adcAbsx w => [loByte w, hiByte w]
  | .rorAbsx w => [loByte w, hiByte w]
  | .bbr7 z off => [z, off]
  | .bra off => [off]
  | .staIndx z => [z]
  | .nop82 v => [v]
  | .nop83 => []
  | .styZpg z => [z]
  | .staZpg z => [z]
  | .stxZpg z => [z]
  | .smb0 z => [z]
  | .dey => []
  | .bitImm v => [v]
  | .txa => []
  | .nop8B => []
  | .styAbs w => [loByte w, hiByte w]
  | .staAbs w => [loByte w, hiByte w]
  | .stxAbs w => [loByte w, hiByte w]
  | .bbs0 z off => [z, off]
  | .bcc off => [off]
  | .staIndy z => [z]
  | .staZpi z => [z]
  | .nop93 => []
  | .styZpx z => [z]
  | .staZpx z => [z]
  | .stxZpy z => [z]
  | .smb1 z => [z]
  | .tya => []
  | .staAbsy w => [loByte w, hiByte w]
  | .txs => []
  | .nop9B => []
  | .stzAbs w => [loByte w, hiByte w]
  | .staAbsx w => [loByte w, hiByte w]
  | .stzAbsx w => [loByte w, hiByte w]
  | .bbs1 z off => [z, off]
  | .ldyImm v => [v]
  | .ldaIndx z => [z]
  | .ldxImm v => [v]
  | .nopA3 => []
  | .ldyZpg z => [z]
  | .ldaZpg z => [z]
  | .ldxZpg z => [z]
  | .smb2 z => [z]
  | .tay => []
  | .ldaImm v => [v]
  | .tax => []
  | .nopAB => []
  | .ldyAbs w => [loByte w, hiByte w]
  | .ldaAbs w => [loByte w, hiByte w]
  | .ldxAbs w => [loByte w, hiByte w]
  | .bbs2 z off => [z, off]
  | .bcs off => [off]
  | .ldaIndy z => [z]
  | .ldaZpi z => [z]
  | .nopB3 => []
  | .ldyZpx z => [z]
  | .ldaZpx z => [z]
  | .ldxZpy z => [z]
  | .smb3 z => [z]
  | .clv => []
  | .ldaAbsy w => [loByte w, hiByte w]
  | .tsx => []
  | .nopBB => []
  | .ldyAbsx w => [loByte w, hiByte w]
  | .ldaAbsx w => [loByte w, hiByte w]
  | .ldxAbsy w => [loByte w, hiByte w]
  | .bbs3 z off => [z, off]
  | .cpyImm v => [v]
  | .cmpIndx z => [z]
  | .nopC2 v => [v]
  | .nopC3 => []
  | .cpyZpg z => [z]
  | .cmpZpg z => [z]
  | .decZpg z => [z]
  | .smb4 z => [z]
  | .iny => []
  | .cmpImm v => [v]
  | .dex => []
  | .wai => []
  | .cpyAbs w => [loByte w, hiByte w]
  | .cmpAbs w => [loByte w, hiByte w]
  | .decAbs w => [loByte w, hiByte w]
  | .bbs4 z off => [z, off]
  | .bne off => [off]
  | .cmpIndy z => [z]
  | .cmpZpi z => [z]
  | .nopD3 => []
  | .nopD4 z => [z]
  | .cmpZpx z => [z]
  | .decZpx z => [z]
  | .smb5 z => [z]
  | .cld => []
  | .cmpAbsy w => [loByte w, hiByte w]
  | .phx => []
  | .stp => []
  | .nopDC w => [loByte w, hiByte w]
  | .cmpAbsx w => [loByte w, hiByte w]
  | .decAbsx w => [loByte w, hiByte w]
  | .bbs5 z off => [z, off]
  | .cpxImm v => [v]
  | .sbcIndx z => [z]
  | .nopE2 v => [v]
  | .nopE3 => []
  | .cpxZpg z => [z]
  | .sbcZpg z => [z]
  | .incZpg z => [z]
  | .smb6 z => [z]
  | .inx => []
  | .sbcImm v => [v]
  | .nop => []
  | .nopEB => []
  | .cpxAbs w => [loByte w, hiByte w]
  | .sbcAbs w => [loByte w, hiByte w]
  | .incAbs w => [loByte w, hiByte w]
  | .bbs6 z off => [z, off]
  | .beq off => [off]
  | .sbcIndy z => [z]
  | .sbcZpi z => [z]
  | .nopF3 => []
  | .nopF4 z => [z]
  | .sbcZpx z => [z]
  | .incZpx z => [z]
  | .smb7 z => [z]
  | .sed => []
  | .sbcAbsy w => [loByte w, hiByte w]
  | .plx => []
  | .nopFB => []
  | .nopFC w => [loByte w, hiByte w]
  | .sbcAbsx w => [loByte w, hiByte w]
  | .incAbsx w => [loByte w, hiByte w]
  | .bbs7 z off => [z, off]

/-- The bytes of an instruction: the opcode byte and the operand bytes (R80). -/
def encode (i : Instr) : List Byte := i.opcode :: i.operands

end Sys2Proof
end

