-- ==== Sys2Proof/Machine/State.lean ====
section
/-! DEFINITION. The state of the core (10_state.md R20), its faults and refusals, and the state after reset (R35). Every
register holds a value from construction on (R21). -/

namespace Sys2Proof.Machine

/-- Memory: (address, byte) pairs, addresses strictly rising, no entry equal to what an unlisted address reads as
(20_memory.md R50). -/
abbrev Memory := List Host.Cell

/-- The status register P without bit 5, which is hardwired to 1 (10_state.md R26, R27). `Status.toByte` in Flags.lean is
the 8-bit register. -/
structure Status where
  /-- Negative, bit 7 -/
  n : Bool
  /-- Overflow, bit 6 -/
  v : Bool
  /-- Break, bit 4: a storage bit (R28) -/
  b : Bool
  /-- Decimal mode, bit 3 -/
  d : Bool
  /-- Interrupt disable, bit 2 -/
  i : Bool
  /-- Zero, bit 1 -/
  z : Bool
  /-- Carry, bit 0 -/
  c : Bool
  deriving DecidableEq, Repr

/-- The kinds of fault a record can hold (60_exceptions.md R304). -/
inductive FaultKind where
  /-- an opcode byte with no descriptor, strict policy (R301) -/
  | invalidOpcode
  /-- an address beyond a hard bound: raised by nothing in this configuration (R303) -/
  | addressOverflow
  deriving DecidableEq, Repr

/-- The record a raise leaves in the state (60_exceptions.md R300). -/
structure FaultRecord where
  kind : FaultKind
  opcode : Byte
  address : Addr
  deriving DecidableEq, Repr

/-- The two kinds of interrupt request (60_exceptions.md R310). -/
inductive InterruptKind where
  | nmi
  | irq
  deriving DecidableEq, Repr

/-- The 8-bit registers that instructions name (10_state.md R22). -/
inductive Reg where
  | a
  | x
  | y
  deriving DecidableEq, Repr

/-- The core's state record (10_state.md R20), the memory it reads and writes (20_memory.md R50), and the configuration
it was constructed with (00_scope.md R6; the model's own field, log entry 1). -/
structure State where
  /-- the parameters of R6; no step changes them -/
  cfg : Config
  /-- program counter -/
  pc : Addr
  /-- stack pointer: the next free cell is 0x0100 + sp -/
  sp : Byte
  /-- accumulator -/
  a : Byte
  /-- index register X -/
  x : Byte
  /-- index register Y -/
  y : Byte
  /-- status register P -/
  p : Status
  /-- cycle counter -/
  cycles : Nat
  /-- the WAI flag; always false on NMOS (R32) -/
  waiting : Bool
  /-- latched NMI request (R33) -/
  nmiPending : Bool
  /-- IRQ request level, driven by the host (R33) -/
  irqLine : Bool
  /-- set by STP only (R20) -/
  stopped : Bool
  /-- the fault the core has raised (R300) -/
  fault : Option FaultRecord
  /-- memory -/
  mem : Memory
  deriving DecidableEq, Repr

/-- Why a step stops with a fault. No step does: the one fault the core raises, InvalidOpcode, is a next state that
holds the record (60_exceptions.md R300, R301; log entry 4). -/
inductive Fault where
  /-- A computed address passed a hard bound. Raised by nothing in this configuration (60_exceptions.md R303); safe. -/
  | addressOverflow
  deriving DecidableEq, Repr

/-- Why an instruction has no meaning. -/
inductive Refusal where
  /-- Raised by an arm of `exec` for an instruction the model gives no meaning yet; safe. No arm does. -/
  | notModelled (mnemonic : String)
  deriving DecidableEq, Repr

/-- The outcome of a step. -/
abbrev Result := Host.Outcome State Fault Refusal

/-- P after reset: 0x30, that is B (and U) set and every other flag clear (R35). -/
def Status.reset : Status where
  n := false
  v := false
  b := true
  d := false
  i := false
  z := false
  c := false

/-- The machine right after reset, in the configuration `Config.default` (R35, R340). Memory lists nothing, so the
reset vector reads 0x0000 and that is PC (`RESET_PC_SOURCE = Vector`; DESIGN CHOICE, log entries 2 and 3); `irqLine` is
the host's (R35; DESIGN CHOICE false, log entry 10). `State.construct` in Hook.lean is the same for every
configuration and memory. -/
def State.reset : State where
  cfg := .default
  pc := 0x0000
  sp := 0xFF
  a := 0x00
  x := 0x00
  y := 0x00
  p := .reset
  cycles := 0
  waiting := false
  nmiPending := false
  irqLine := false
  stopped := false
  fault := none
  mem := []

end Sys2Proof.Machine
end

