-- ==== Sys2Proof/Machine/Flags.lean ====
section
/-! DEFINITION. The status register as a byte (10_state.md R26 to R28) and every flag and ALU computation of the spec:
N and Z from a result (00_scope.md R11), add and subtract in binary and decimal (42_arithmetic.md R158 to R165), compare
(R168), bit test (43_logic_shift_bit.md R193, R198), shifts and rotates (R194 to R197). -/

namespace Sys2Proof.Machine

/-- One flag at its bit of P. -/
def flagBit (b : Bool) (mask : Byte) : Byte := if b then mask else 0x00

/-- P as the 8-bit register: the masks of R26, bit 5 always 1 (R27). -/
def Status.toByte (p : Status) : Byte :=
  flagBit p.n 0x80 ||| flagBit p.v 0x40 ||| 0x20 ||| flagBit p.b 0x10 ||| flagBit p.d 0x08 ||| flagBit p.i 0x04
    ||| flagBit p.z 0x02 ||| flagBit p.c 0x01

/-- P after a write of the byte `v`: bit 5 of `v` is not stored (R27). -/
def Status.ofByte (v : Byte) : Status where
  n := v.getLsbD 7
  v := v.getLsbD 6
  b := v.getLsbD 4
  d := v.getLsbD 3
  i := v.getLsbD 2
  z := v.getLsbD 1
  c := v.getLsbD 0

/-- The status byte PHP and BRK push: `P OR 0x30` (R241, R260). -/
def Status.pushed (p : Status) : Byte := p.toByte ||| 0x30

/-- The status byte an interrupt entry pushes: `(P AND 0xEF) OR 0x20` (R313). -/
def Status.pushedByInterrupt (p : Status) : Byte := (p.toByte &&& 0xEF) ||| 0x20

/-- P as PLP and RTI restore it from a popped byte: `v OR 0x30` (R245, R261). -/
def Status.pulled (v : Byte) : Status := .ofByte (v ||| 0x30)

/-- `NZ(v)`: N is bit 7 of `v`, Z is `v == 0` (R11). -/
def Status.nz (p : Status) (v : Byte) : Status := { p with n := v.msb, z := v == 0 }

/-- The four flags of an ALU result written into P (R166, R167). -/
def Status.alu (p : Status) (r : AluResult) : Status := { p with n := r.n, v := r.v, z := r.z, c := r.c }

/-- `AddBin(a, m, cin)` (R160). -/
def addBin (a m : Byte) (cin : Bool) : AluResult :=
  let sum := a.toNat + m.toNat + cin.toNat
  let r := BitVec.ofNat 8 sum
  { r := r
    n := r.msb
    v := (a ^^^ r) &&& (m ^^^ r) &&& 0x80 != 0
    z := r == 0
    c := sum > 0xFF }

/-- `SubBin(a, m, cin)`: add the complement (R163). -/
def subBin (a m : Byte) (cin : Bool) : AluResult := addBin a (m ^^^ 0xFF) cin

/-- `AdcDec_NMOS(a, m, cin)` (R161): N and V from the sum before the high correction, Z from the binary sum. -/
def adcDecNmos (a m : Byte) (cin : Bool) : AluResult :=
  let al0 := (a &&& 0x0F).toNat + (m &&& 0x0F).toNat + cin.toNat
  let al := if al0 ≥ 0x0A then (al0 + 0x06) % 0x10 + 0x10 else al0
  let s := (a &&& 0xF0).toNat + (m &&& 0xF0).toNat + al
  let t : Int := (a &&& 0xF0).toInt + (m &&& 0xF0).toInt + al
  let s' := if s ≥ 0xA0 then s + 0x60 else s
  { r := BitVec.ofNat 8 s'
    n := s.testBit 7
    v := t < -128 || t > 127
    z := (a.toNat + m.toNat + cin.toNat) % 0x100 == 0
    c := s' ≥ 0x100 }

/-- `AdcDec_CMOS(a, m, cin)` (R162): N and Z from the decimal result. -/
def adcDecCmos (a m : Byte) (cin : Bool) : AluResult :=
  let d := adcDecNmos a m cin
  { d with n := d.r.msb, z := d.r == 0 }

/-- `SbcDec_NMOS(a, m, cin)` (R164): all four flags are the binary ones. -/
def sbcDecNmos (a m : Byte) (cin : Bool) : AluResult :=
  let al0 : Int := ((a &&& 0x0F).toNat : Int) - ((m &&& 0x0F).toNat : Int) + (cin.toNat : Int) - 1
  let al : Int := if al0 < 0 then (al0 - 0x06) % 0x10 - 0x10 else al0
  let s : Int := ((a &&& 0xF0).toNat : Int) - ((m &&& 0xF0).toNat : Int) + al
  let s' : Int := if s < 0 then s - 0x60 else s
  { subBin a m cin with r := BitVec.ofInt 8 s' }

/-- `SbcDec_CMOS(a, m, cin)` (R165): C and V are the binary ones, N and Z from the decimal result. -/
def sbcDecCmos (a m : Byte) (cin : Bool) : AluResult :=
  let al : Int := ((a &&& 0x0F).toNat : Int) - ((m &&& 0x0F).toNat : Int) + (cin.toNat : Int) - 1
  let s : Int := (a.toNat : Int) - (m.toNat : Int) + (cin.toNat : Int) - 1
  let s' : Int := if s < 0 then s - 0x60 else s
  let s'' : Int := if al < 0 then s' - 0x06 else s'
  let r := BitVec.ofInt 8 s''
  { subBin a m cin with r := r, n := r.msb, z := r == 0 }

/-- A byte is valid packed BCD when both nibbles are at most 9 (R158, glossary). -/
def validBcd (v : Byte) : Bool := v.toNat / 16 ≤ 9 && v.toNat % 16 ≤ 9

/-- Whether the rules' algorithms give the decimal result: always with the default `DECIMAL_NONBCD`, and for valid
packed BCD operands whatever that parameter is (R158). -/
def decimalByRule (cfg : Config) (a m : Byte) : Bool := cfg.decimalNonBcd == .reference || (validBcd a && validBcd m)

/-- Decimal ADC of a configuration (R158, R161, R162). -/
def adcDec (cfg : Config) (a m : Byte) (cin : Bool) : AluResult :=
  if decimalByRule cfg a m then
    match cfg.variant with
    | .nmos => adcDecNmos a m cin
    | .cmos => adcDecCmos a m cin
  else Config.nonBcdAdd cfg.variant a m cin

/-- Decimal SBC of a configuration (R158, R164, R165). -/
def sbcDec (cfg : Config) (a m : Byte) (cin : Bool) : AluResult :=
  if decimalByRule cfg a m then
    match cfg.variant with
    | .nmos => sbcDecNmos a m cin
    | .cmos => sbcDecCmos a m cin
  else Config.nonBcdSub cfg.variant a m cin

/-- The ALU's add: binary, or decimal when P.D is set (R166). -/
def aluAdd (cfg : Config) (decimal : Bool) (a m : Byte) (cin : Bool) : AluResult :=
  if decimal then adcDec cfg a m cin else addBin a m cin

/-- The ALU's subtract: binary, or decimal when P.D is set (R167). -/
def aluSub (cfg : Config) (decimal : Bool) (a m : Byte) (cin : Bool) : AluResult :=
  if decimal then sbcDec cfg a m cin else subBin a m cin

/-- `Compare(r, m)`: C when `r ≥ m`, Z when equal, N from the difference; binary even with D = 1, V unchanged (R168). -/
def Status.compare (p : Status) (r m : Byte) : Status :=
  { p with n := (r - m).msb, z := r == m, c := r.toNat ≥ m.toNat }

/-- The bit test's Z: `(A AND m) == 0` (R193, R198, R199). -/
def Status.testZ (p : Status) (a m : Byte) : Status := { p with z := a &&& m == 0 }

/-- The memory forms of BIT: Z as `testZ`, N and V the operand's bits 7 and 6 (R193, R287). -/
def Status.bitTest (p : Status) (a m : Byte) : Status :=
  { p with n := m.getLsbD 7, v := m.getLsbD 6, z := a &&& m == 0 }

/-- The result of a shift or rotate and the bit shifted out. -/
structure Shifted where
  r : Byte
  carry : Bool
  deriving DecidableEq, Repr

/-- ASL (R194). -/
def shiftAsl (v : Byte) (_cin : Bool) : Shifted := { r := v <<< 1, carry := v.getLsbD 7 }

/-- LSR (R195). -/
def shiftLsr (v : Byte) (_cin : Bool) : Shifted := { r := v >>> 1, carry := v.getLsbD 0 }

/-- ROL: the old carry enters bit 0 (R196). -/
def shiftRol (v : Byte) (cin : Bool) : Shifted := { r := (v <<< 1) ||| flagBit cin 0x01, carry := v.getLsbD 7 }

/-- ROR: the old carry enters bit 7 (R197). -/
def shiftRor (v : Byte) (cin : Bool) : Shifted := { r := (v >>> 1) ||| flagBit cin 0x80, carry := v.getLsbD 0 }

/-- The flags of a shift: N and Z from the result, C the bit shifted out (R194 to R197). -/
def Status.shifted (p : Status) (r : Shifted) : Status := { p with n := r.r.msb, z := r.r == 0, c := r.carry }

/-- The byte whose one set bit is bit `n` (R200 to R215, R271 to R286). -/
def bitMask (n : Nat) : Byte := 1#8 <<< n

end Sys2Proof.Machine
end

