-- ==== Sys2Proof/Machine/Ops.lean ====
section
/-! DEFINITION. The named operations over memory and registers (00_scope.md R11; 20_memory.md R51, R60 to R63), the
advance past an instruction's bytes and its base cycles (30_encoding.md R88, R90), and taking and returning from an
exception (46_system.md R260, R261; 60_exceptions.md R313). -/

namespace Sys2Proof.Machine

/-- What a cell nothing has written reads as. The spec leaves memory's initial contents to the host (20_memory.md R50);
DESIGN CHOICE 0x00, log entry 3. -/
def Memory.unlisted : Byte := 0x00

/-- The byte at an address. -/
def Memory.read : Memory → Nat → Byte
  | [], _ => Memory.unlisted
  | (k, v) :: rest, a => if k = a then v else Memory.read rest a

/-- The memory without any entry for an address. -/
def Memory.erase (m : Memory) (a : Nat) : Memory := m.filter fun cell => cell.1 != a

/-- An entry put at its place in rising order. -/
def Memory.insert : Memory → Nat → Byte → Memory
  | [], a, v => [(a, v)]
  | (k, w) :: rest, a, v => if a < k then (a, v) :: (k, w) :: rest else (k, w) :: Memory.insert rest a v

/-- Store a byte, keeping the canonical form: writing what an unlisted address reads as removes the entry. -/
def Memory.write (m : Memory) (a : Nat) (v : Byte) : Memory :=
  if v = Memory.unlisted then m.erase a else (m.erase a).insert a v

/-- The canonical form: addresses strictly rising and below 65,536, no entry equal to what an unlisted address reads
as. -/
abbrev Memory.wf (m : Memory) : Prop :=
  m.Pairwise (fun c c' => c.1 < c'.1) ∧ ∀ c ∈ m, c.1 < 65536 ∧ c.2 ≠ Memory.unlisted

/-- `MemRead(addr, 1)` (R11, R51). -/
def State.read (s : State) (addr : Addr) : Byte := s.mem.read addr.toNat

/-- `MemWrite(addr, 1, v)` (R11, R51). -/
def State.write (s : State) (addr : Addr) (v : Byte) : State := { s with mem := s.mem.write addr.toNat v }

/-- `Read16(a)`: little-endian, wrapping from 0xFFFF to 0x0000 (R51). -/
def State.read16 (s : State) (a : Addr) : Addr := word (s.read (a + 1)) (s.read a)

/-- `Read16ZP(z)`: both bytes in page zero (R51). -/
def State.read16ZP (s : State) (z : Byte) : Addr := word (s.read (zeroPage (z + 1))) (s.read (zeroPage z))

/-- `Read16Page(a)`: the high byte from the same page (R51). -/
def State.read16Page (s : State) (a : Addr) : Addr := word (s.read (word (hiByte a) (loByte a + 1))) (s.read a)

/-- Set PC. -/
def State.setPC (s : State) (pc : Addr) : State := { s with pc := pc }

/-- Set SP. -/
def State.setSP (s : State) (sp : Byte) : State := { s with sp := sp }

/-- Set P. Bit 5 is not stored (R27). -/
def State.setP (s : State) (p : Status) : State := { s with p := p }

/-- `NZ(v)` (R11). -/
def State.setNZ (s : State) (v : Byte) : State := s.setP (s.p.nz v)

/-- Read a named register (R10). -/
def State.reg (s : State) : Reg → Byte
  | .a => s.a
  | .x => s.x
  | .y => s.y

/-- Write a named register (R10). -/
def State.setReg (s : State) (r : Reg) (v : Byte) : State :=
  match r with
  | .a => { s with a := v }
  | .x => { s with x := v }
  | .y => { s with y := v }

/-- `cycles += n` (R11). -/
def State.addCycles (s : State) (n : Nat) : State := { s with cycles := s.cycles + n }

/-- Move past the `len` bytes of the instruction with opcode `op` and count its base cycles (R88, R90, R350). -/
def State.advance (s : State) (op : Byte) (len : Nat) : State :=
  (s.setPC (s.pc + BitVec.ofNat 16 len)).addCycles (baseCycles s.cfg op)

/-- The stack cell for a stack pointer value: `0x0100 + sp` (R58). -/
def stackCell (sp : Byte) : Addr := word 0x01 sp

/-- `Push(v)` (R60). -/
def State.push (s : State) (v : Byte) : State := (s.write (stackCell s.sp) v).setSP (s.sp - 1)

/-- The byte `Pop()` returns (R61). -/
def State.popByte (s : State) : Byte := s.read (stackCell (s.sp + 1))

/-- The state after `Pop()` (R61). -/
def State.dropByte (s : State) : State := s.setSP (s.sp + 1)

/-- `PushWord(w)`: high byte first (R62). -/
def State.pushWord (s : State) (w : Addr) : State := (s.push (hiByte w)).push (loByte w)

/-- The word `PopWord()` returns: low byte first (R63). -/
def State.popWord (s : State) : Addr := word s.dropByte.popByte s.popByte

/-- The state after `PopWord()` (R63). -/
def State.dropWord (s : State) : State := s.dropByte.dropByte

/-- TAKING AN EXCEPTION: push PC, push a status byte, set I, set B as the kind of entry says, clear D on CMOS, and take
PC from the vector (R260 for BRK, R313 for IRQ and NMI). -/
def State.takeException (s : State) (vector : Addr) (pushedP : Byte) (b : Bool) : State :=
  let s1 := (s.pushWord s.pc).push pushedP
  let s2 := s1.setP { s1.p with i := true, b := b, d := s1.p.d && s1.cfg.variant == .nmos }
  s2.setPC (s2.read16 vector)

/-- RETURNING FROM AN EXCEPTION: P from the stack with B and U set, then PC, with no increment (R261, R320). -/
def State.returnFromException (s : State) : State :=
  let s1 := s.dropByte.setP (.pulled s.popByte)
  s1.dropWord.setPC s1.popWord

/-- The NMI, reset and IRQ vectors (R56, R307). -/
def nmiVector : Addr := 0xFFFA

@[inherit_doc nmiVector] def resetVector : Addr := 0xFFFC

@[inherit_doc nmiVector] def irqVector : Addr := 0xFFFE

end Sys2Proof.Machine
end

