-- ==== Sys2Proof/Machine/Operands.lean ====
section
/-! DEFINITION. The address-mode resolver (40_addressing.md R110 to R125): every operand form, its effective address, its
page-cross penalty and its value. The operand bytes are those the decoder read; the pointer bytes are read here. -/

namespace Sys2Proof.Machine

/-- A memory operand: its mode and operand bytes (R113 to R122). -/
inductive Operand where
  | imm (v : Byte)
  | zpg (z : Byte)
  | zpx (z : Byte)
  | zpy (z : Byte)
  | abs (w : Addr)
  | absx (w : Addr)
  | absy (w : Addr)
  | indx (z : Byte)
  | indy (z : Byte)
  | zpi (z : Byte)
  deriving DecidableEq, Repr

/-- The mode tag of an operand (R80). -/
def Operand.mode : Operand → Mode
  | .imm _ => .imm
  | .zpg _ => .zpg
  | .zpx _ => .zpx
  | .zpy _ => .zpy
  | .abs _ => .abs
  | .absx _ => .absx
  | .absy _ => .absy
  | .indx _ => .indx
  | .indy _ => .indy
  | .zpi _ => .zpi

/-- The address before the index register is added, for the modes that can be charged a page cross (R112, R117, R121);
for the other modes, no address is indexed across a page and this is not read. -/
def Operand.base (o : Operand) (s : State) : Addr :=
  match o with
  | .absx w => w
  | .absy w => w
  | .indy z => s.read16ZP z
  | _ => 0

/-- The effective address in the state at the instruction's start, where PC is the opcode's address (R110, R113 to
R122). -/
def Operand.ea (o : Operand) (s : State) : Addr :=
  match o with
  | .imm _ => s.pc + 1
  | .zpg z => zeroPage z
  | .zpx z => zeroPage (z + s.x)
  | .zpy z => zeroPage (z + s.y)
  | .abs w => w
  | .absx w => w + s.x.setWidth 16
  | .absy w => w + s.y.setWidth 16
  | .indx z => s.read16ZP (z + s.x)
  | .indy z => s.read16ZP z + s.y.setWidth 16
  | .zpi z => s.read16ZP z

/-- Whether the index addition crosses a page; only `absx`, `absy` and `indy` can (R112). -/
def Operand.crosses (o : Operand) (s : State) : Bool :=
  match o with
  | .absx _ => pageDiffers (o.ea s) (o.base s)
  | .absy _ => pageDiffers (o.ea s) (o.base s)
  | .indy _ => pageDiffers (o.ea s) (o.base s)
  | _ => false

/-- The extra cycle of a page-cross-sensitive opcode (R112, R350). -/
def Operand.penalty (o : Operand) (op : Byte) (s : State) : Nat :=
  if pageCrossSensitive s.cfg op && o.crosses s then 1 else 0

/-- The operand value `M` (R110): for `imm` the operand byte itself (R113), else the byte at the effective address. -/
def Operand.value (o : Operand) (s : State) : Byte :=
  match o with
  | .imm v => v
  | _ => s.read (o.ea s)

/-- Move past the instruction with opcode `op` and this operand: its length, base cycles and penalty (R80, R88, R90). -/
def State.advanceOver (s : State) (op : Byte) (o : Operand) : State :=
  (s.advance op o.mode.length).addCycles (o.penalty op s)

/-- The target of JMP `ind`: the NMOS pointer read stays in its page, the CMOS one does not (R118). -/
def indirectTarget (s : State) (ptr : Addr) : Addr :=
  match s.cfg.variant with
  | .nmos => s.read16Page ptr
  | .cmos => s.read16 ptr

/-- The target of JMP `iax` (R123). -/
def indexedIndirectTarget (s : State) (base : Addr) : Addr := s.read16 (base + s.x.setWidth 16)

/-- The target of a branch: the offset added to the address of the next instruction (R120, R124). -/
def branchTarget (next : Addr) (off : Byte) : Addr := next + signedOffset off

/-- The common branch (R220, R270), with PC already at the next instruction: one extra cycle when taken, one more across
a page. -/
def State.branch (s : State) (cond : Bool) (off : Byte) : State :=
  let target := branchTarget s.pc off
  if cond then (s.setPC target).addCycles (if pageDiffers target s.pc then 2 else 1) else s

end Sys2Proof.Machine
end

