-- ==== Sys2Proof/Machine/Arith.lean ====
section
/-! DEFINITION. Add, subtract, compare, increment and decrement (42_arithmetic.md R166 to R177). -/

namespace Sys2Proof.Machine

/-- ADC and SBC: A and the flags N, V, Z, C from the ALU, which reads P.D and P.C (R166, R167). -/
def addSub (alu : Config → Bool → Byte → Byte → Bool → AluResult) (op : Byte) (o : Operand) (s : State) : Result :=
  let r := alu s.cfg s.p.d s.a (o.value s) s.p.c
  .next (((s.advanceOver op o).setReg .a r.r).setP (s.p.alu r))

/-- CMP, CPX, CPY: N, Z, C only (R168 to R171). -/
def compareWith (r : Reg) (op : Byte) (o : Operand) (s : State) : Result :=
  .next ((s.advanceOver op o).setP (s.p.compare (s.reg r) (o.value s)))

/-- INC and DEC in memory: one read, one write at the same address, N and Z (R172, R173). -/
def stepMem (f : Byte → Byte) (op : Byte) (o : Operand) (s : State) : Result :=
  .next (((s.advanceOver op o).write (o.ea s) (f (o.value s))).setNZ (f (o.value s)))

/-- A register becomes `v`, the register's value one up or down; N and Z (R172 to R177). -/
def stepReg (r : Reg) (v : Byte) (op : Byte) (s : State) : Result :=
  .next (((s.advance op 1).setReg r v).setNZ v)

/-- ADC `indx`, 0x61 (R166). -/
def execAdcIndx (z : Byte) (s : State) : Result :=
  addSub aluAdd 0x61 (.indx z) s

/-- ADC `zpg`, 0x65 (R166). -/
def execAdcZpg (z : Byte) (s : State) : Result :=
  addSub aluAdd 0x65 (.zpg z) s

/-- ADC `imm`, 0x69 (R166). -/
def execAdcImm (v : Byte) (s : State) : Result :=
  addSub aluAdd 0x69 (.imm v) s

/-- ADC `abs`, 0x6D (R166). -/
def execAdcAbs (w : Addr) (s : State) : Result :=
  addSub aluAdd 0x6D (.abs w) s

/-- ADC `indy`, 0x71 (R166). -/
def execAdcIndy (z : Byte) (s : State) : Result :=
  addSub aluAdd 0x71 (.indy z) s

/-- ADC `zpi`, 0x72 (R166, CMOS). -/
def execAdcZpi (z : Byte) (s : State) : Result :=
  addSub aluAdd 0x72 (.zpi z) s

/-- ADC `zpx`, 0x75 (R166). -/
def execAdcZpx (z : Byte) (s : State) : Result :=
  addSub aluAdd 0x75 (.zpx z) s

/-- ADC `absy`, 0x79 (R166). -/
def execAdcAbsy (w : Addr) (s : State) : Result :=
  addSub aluAdd 0x79 (.absy w) s

/-- ADC `absx`, 0x7D (R166). -/
def execAdcAbsx (w : Addr) (s : State) : Result :=
  addSub aluAdd 0x7D (.absx w) s

/-- SBC `indx`, 0xE1 (R167). -/
def execSbcIndx (z : Byte) (s : State) : Result :=
  addSub aluSub 0xE1 (.indx z) s

/-- SBC `zpg`, 0xE5 (R167). -/
def execSbcZpg (z : Byte) (s : State) : Result :=
  addSub aluSub 0xE5 (.zpg z) s

/-- SBC `imm`, 0xE9 (R167). -/
def execSbcImm (v : Byte) (s : State) : Result :=
  addSub aluSub 0xE9 (.imm v) s

/-- SBC `abs`, 0xED (R167). -/
def execSbcAbs (w : Addr) (s : State) : Result :=
  addSub aluSub 0xED (.abs w) s

/-- SBC `indy`, 0xF1 (R167). -/
def execSbcIndy (z : Byte) (s : State) : Result :=
  addSub aluSub 0xF1 (.indy z) s

/-- SBC `zpi`, 0xF2 (R167, CMOS). -/
def execSbcZpi (z : Byte) (s : State) : Result :=
  addSub aluSub 0xF2 (.zpi z) s

/-- SBC `zpx`, 0xF5 (R167). -/
def execSbcZpx (z : Byte) (s : State) : Result :=
  addSub aluSub 0xF5 (.zpx z) s

/-- SBC `absy`, 0xF9 (R167). -/
def execSbcAbsy (w : Addr) (s : State) : Result :=
  addSub aluSub 0xF9 (.absy w) s

/-- SBC `absx`, 0xFD (R167). -/
def execSbcAbsx (w : Addr) (s : State) : Result :=
  addSub aluSub 0xFD (.absx w) s

/-- CMP `indx`, 0xC1 (R169). -/
def execCmpIndx (z : Byte) (s : State) : Result :=
  compareWith .a 0xC1 (.indx z) s

/-- CMP `zpg`, 0xC5 (R169). -/
def execCmpZpg (z : Byte) (s : State) : Result :=
  compareWith .a 0xC5 (.zpg z) s

/-- CMP `imm`, 0xC9 (R169). -/
def execCmpImm (v : Byte) (s : State) : Result :=
  compareWith .a 0xC9 (.imm v) s

/-- CMP `abs`, 0xCD (R169). -/
def execCmpAbs (w : Addr) (s : State) : Result :=
  compareWith .a 0xCD (.abs w) s

/-- CMP `indy`, 0xD1 (R169). -/
def execCmpIndy (z : Byte) (s : State) : Result :=
  compareWith .a 0xD1 (.indy z) s

/-- CMP `zpi`, 0xD2 (R169, CMOS). -/
def execCmpZpi (z : Byte) (s : State) : Result :=
  compareWith .a 0xD2 (.zpi z) s

/-- CMP `zpx`, 0xD5 (R169). -/
def execCmpZpx (z : Byte) (s : State) : Result :=
  compareWith .a 0xD5 (.zpx z) s

/-- CMP `absy`, 0xD9 (R169). -/
def execCmpAbsy (w : Addr) (s : State) : Result :=
  compareWith .a 0xD9 (.absy w) s

/-- CMP `absx`, 0xDD (R169). -/
def execCmpAbsx (w : Addr) (s : State) : Result :=
  compareWith .a 0xDD (.absx w) s

/-- CPX `imm`, 0xE0 (R170). -/
def execCpxImm (v : Byte) (s : State) : Result :=
  compareWith .x 0xE0 (.imm v) s

/-- CPX `zpg`, 0xE4 (R170). -/
def execCpxZpg (z : Byte) (s : State) : Result :=
  compareWith .x 0xE4 (.zpg z) s

/-- CPX `abs`, 0xEC (R170). -/
def execCpxAbs (w : Addr) (s : State) : Result :=
  compareWith .x 0xEC (.abs w) s

/-- CPY `imm`, 0xC0 (R171). -/
def execCpyImm (v : Byte) (s : State) : Result :=
  compareWith .y 0xC0 (.imm v) s

/-- CPY `zpg`, 0xC4 (R171). -/
def execCpyZpg (z : Byte) (s : State) : Result :=
  compareWith .y 0xC4 (.zpg z) s

/-- CPY `abs`, 0xCC (R171). -/
def execCpyAbs (w : Addr) (s : State) : Result :=
  compareWith .y 0xCC (.abs w) s

/-- INC `acc`, 0x1A (R172, CMOS). -/
def execIncAcc (s : State) : Result :=
  stepReg .a (s.a + 1) 0x1A s

/-- INC `zpg`, 0xE6 (R172). -/
def execIncZpg (z : Byte) (s : State) : Result :=
  stepMem (· + 1) 0xE6 (.zpg z) s

/-- INC `abs`, 0xEE (R172). -/
def execIncAbs (w : Addr) (s : State) : Result :=
  stepMem (· + 1) 0xEE (.abs w) s

/-- INC `zpx`, 0xF6 (R172). -/
def execIncZpx (z : Byte) (s : State) : Result :=
  stepMem (· + 1) 0xF6 (.zpx z) s

/-- INC `absx`, 0xFE (R172). -/
def execIncAbsx (w : Addr) (s : State) : Result :=
  stepMem (· + 1) 0xFE (.absx w) s

/-- DEC `acc`, 0x3A (R173, CMOS). -/
def execDecAcc (s : State) : Result :=
  stepReg .a (s.a - 1) 0x3A s

/-- DEC `zpg`, 0xC6 (R173). -/
def execDecZpg (z : Byte) (s : State) : Result :=
  stepMem (· - 1) 0xC6 (.zpg z) s

/-- DEC `abs`, 0xCE (R173). -/
def execDecAbs (w : Addr) (s : State) : Result :=
  stepMem (· - 1) 0xCE (.abs w) s

/-- DEC `zpx`, 0xD6 (R173). -/
def execDecZpx (z : Byte) (s : State) : Result :=
  stepMem (· - 1) 0xD6 (.zpx z) s

/-- DEC `absx`, 0xDE (R173). -/
def execDecAbsx (w : Addr) (s : State) : Result :=
  stepMem (· - 1) 0xDE (.absx w) s

/-- INX `imp`, 0xE8 (R174). -/
def execInx (s : State) : Result :=
  stepReg .x (s.x + 1) 0xE8 s

/-- INY `imp`, 0xC8 (R175). -/
def execIny (s : State) : Result :=
  stepReg .y (s.y + 1) 0xC8 s

/-- DEX `imp`, 0xCA (R176). -/
def execDex (s : State) : Result :=
  stepReg .x (s.x - 1) 0xCA s

/-- DEY `imp`, 0x88 (R177). -/
def execDey (s : State) : Result :=
  stepReg .y (s.y - 1) 0x88 s

end Sys2Proof.Machine
end

