-- ==== Sys2Proof/Machine/Control.lean ====
section
/-! DEFINITION. Branches, jumps, subroutine call and return (44_control_transfer.md R220 to R232), and the optional branches on a
bit of a zero-page byte (47_cmos_optional.md R270 to R286). -/

namespace Sys2Proof.Machine

/-- A branch: past its two bytes, then the common branch (R220 to R229). -/
def branchIf (cond : Bool) (op : Byte) (off : Byte) (s : State) : Result :=
  .next ((s.advance op 2).branch cond off)

/-- BBRn and BBSn: past the three bytes, then the common branch when bit `n` of the zero-page byte is `want` (R270 to
R286). -/
def branchOnBit (n : Nat) (want : Bool) (op : Byte) (z off : Byte) (s : State) : Result :=
  .next ((s.advance op 3).branch ((s.read (zeroPage z)).getLsbD n == want) off)

/-- JMP: PC becomes the target (R230). -/
def jump (target : Addr) (op : Byte) (s : State) : Result :=
  .next ((s.advance op 3).setPC target)

/-- BCC `rel`, 0x90 (R221). -/
def execBcc (off : Byte) (s : State) : Result :=
  branchIf (!s.p.c) 0x90 off s

/-- BCS `rel`, 0xB0 (R222). -/
def execBcs (off : Byte) (s : State) : Result :=
  branchIf (s.p.c) 0xB0 off s

/-- BEQ `rel`, 0xF0 (R223). -/
def execBeq (off : Byte) (s : State) : Result :=
  branchIf (s.p.z) 0xF0 off s

/-- BNE `rel`, 0xD0 (R224). -/
def execBne (off : Byte) (s : State) : Result :=
  branchIf (!s.p.z) 0xD0 off s

/-- BMI `rel`, 0x30 (R225). -/
def execBmi (off : Byte) (s : State) : Result :=
  branchIf (s.p.n) 0x30 off s

/-- BPL `rel`, 0x10 (R226). -/
def execBpl (off : Byte) (s : State) : Result :=
  branchIf (!s.p.n) 0x10 off s

/-- BVC `rel`, 0x50 (R227). -/
def execBvc (off : Byte) (s : State) : Result :=
  branchIf (!s.p.v) 0x50 off s

/-- BVS `rel`, 0x70 (R228). -/
def execBvs (off : Byte) (s : State) : Result :=
  branchIf (s.p.v) 0x70 off s

/-- BRA `rel`, 0x80 (R229, CMOS). -/
def execBra (off : Byte) (s : State) : Result :=
  branchIf (true) 0x80 off s

/-- JMP `abs`, 0x4C (R230). -/
def execJmpAbs (w : Addr) (s : State) : Result :=
  jump w 0x4C s

/-- JMP `ind`, 0x6C (R230). -/
def execJmpInd (w : Addr) (s : State) : Result :=
  jump (indirectTarget s w) 0x6C s

/-- JMP `iax`, 0x7C (R230, CMOS). -/
def execJmpIax (w : Addr) (s : State) : Result :=
  jump (indexedIndirectTarget s w) 0x7C s

/-- JSR `abs`, 0x20 (R231). -/
def execJsr (w : Addr) (s : State) : Result :=
  let s1 := s.advance 0x20 3
  .next ((s1.pushWord (s1.pc - 1)).setPC w)

/-- RTS `imp`, 0x60 (R232). -/
def execRts (s : State) : Result :=
  let s1 := s.advance 0x60 1
  .next (s1.dropWord.setPC (s1.popWord + 1))

/-- BBR0 `zrel`, 0x0F (R271, WDC_EXTRAS). -/
def execBbr0 (z : Byte) (off : Byte) (s : State) : Result :=
  branchOnBit 0 false 0x0F z off s

/-- BBR1 `zrel`, 0x1F (R272, WDC_EXTRAS). -/
def execBbr1 (z : Byte) (off : Byte) (s : State) : Result :=
  branchOnBit 1 false 0x1F z off s

/-- BBR2 `zrel`, 0x2F (R273, WDC_EXTRAS). -/
def execBbr2 (z : Byte) (off : Byte) (s : State) : Result :=
  branchOnBit 2 false 0x2F z off s

/-- BBR3 `zrel`, 0x3F (R274, WDC_EXTRAS). -/
def execBbr3 (z : Byte) (off : Byte) (s : State) : Result :=
  branchOnBit 3 false 0x3F z off s

/-- BBR4 `zrel`, 0x4F (R275, WDC_EXTRAS). -/
def execBbr4 (z : Byte) (off : Byte) (s : State) : Result :=
  branchOnBit 4 false 0x4F z off s

/-- BBR5 `zrel`, 0x5F (R276, WDC_EXTRAS). -/
def execBbr5 (z : Byte) (off : Byte) (s : State) : Result :=
  branchOnBit 5 false 0x5F z off s

/-- BBR6 `zrel`, 0x6F (R277, WDC_EXTRAS). -/
def execBbr6 (z : Byte) (off : Byte) (s : State) : Result :=
  branchOnBit 6 false 0x6F z off s

/-- BBR7 `zrel`, 0x7F (R278, WDC_EXTRAS). -/
def execBbr7 (z : Byte) (off : Byte) (s : State) : Result :=
  branchOnBit 7 false 0x7F z off s

/-- BBS0 `zrel`, 0x8F (R279, WDC_EXTRAS). -/
def execBbs0 (z : Byte) (off : Byte) (s : State) : Result :=
  branchOnBit 0 true 0x8F z off s

/-- BBS1 `zrel`, 0x9F (R280, WDC_EXTRAS). -/
def execBbs1 (z : Byte) (off : Byte) (s : State) : Result :=
  branchOnBit 1 true 0x9F z off s

/-- BBS2 `zrel`, 0xAF (R281, WDC_EXTRAS). -/
def execBbs2 (z : Byte) (off : Byte) (s : State) : Result :=
  branchOnBit 2 true 0xAF z off s

/-- BBS3 `zrel`, 0xBF (R282, WDC_EXTRAS). -/
def execBbs3 (z : Byte) (off : Byte) (s : State) : Result :=
  branchOnBit 3 true 0xBF z off s

/-- BBS4 `zrel`, 0xCF (R283, WDC_EXTRAS). -/
def execBbs4 (z : Byte) (off : Byte) (s : State) : Result :=
  branchOnBit 4 true 0xCF z off s

/-- BBS5 `zrel`, 0xDF (R284, WDC_EXTRAS). -/
def execBbs5 (z : Byte) (off : Byte) (s : State) : Result :=
  branchOnBit 5 true 0xDF z off s

/-- BBS6 `zrel`, 0xEF (R285, WDC_EXTRAS). -/
def execBbs6 (z : Byte) (off : Byte) (s : State) : Result :=
  branchOnBit 6 true 0xEF z off s

/-- BBS7 `zrel`, 0xFF (R286, WDC_EXTRAS). -/
def execBbs7 (z : Byte) (off : Byte) (s : State) : Result :=
  branchOnBit 7 true 0xFF z off s

end Sys2Proof.Machine
end

