-- ==== Sys2Proof/Machine/LoadStore.lean ====
section
/-! DEFINITION. Loads, stores and register transfers (41_load_store_transfer.md R140 to R152). -/

namespace Sys2Proof.Machine

/-- Load a register and set N and Z from the loaded value (R140 to R142). -/
def load (r : Reg) (op : Byte) (o : Operand) (s : State) : Result :=
  .next (((s.advanceOver op o).setReg r (o.value s)).setNZ (o.value s))

/-- Store a byte at the effective address; no flag (R143 to R146). -/
def store (v : Byte) (op : Byte) (o : Operand) (s : State) : Result :=
  .next ((s.advanceOver op o).write (o.ea s) v)

/-- Copy a value to a register and set N and Z from it (R147 to R151). -/
def transfer (v : Byte) (dst : Reg) (op : Byte) (s : State) : Result :=
  .next (((s.advance op 1).setReg dst v).setNZ v)

/-- LDA `indx`, 0xA1 (R140). -/
def execLdaIndx (z : Byte) (s : State) : Result :=
  load .a 0xA1 (.indx z) s

/-- LDA `zpg`, 0xA5 (R140). -/
def execLdaZpg (z : Byte) (s : State) : Result :=
  load .a 0xA5 (.zpg z) s

/-- LDA `imm`, 0xA9 (R140). -/
def execLdaImm (v : Byte) (s : State) : Result :=
  load .a 0xA9 (.imm v) s

/-- LDA `abs`, 0xAD (R140). -/
def execLdaAbs (w : Addr) (s : State) : Result :=
  load .a 0xAD (.abs w) s

/-- LDA `indy`, 0xB1 (R140). -/
def execLdaIndy (z : Byte) (s : State) : Result :=
  load .a 0xB1 (.indy z) s

/-- LDA `zpi`, 0xB2 (R140, CMOS). -/
def execLdaZpi (z : Byte) (s : State) : Result :=
  load .a 0xB2 (.zpi z) s

/-- LDA `zpx`, 0xB5 (R140). -/
def execLdaZpx (z : Byte) (s : State) : Result :=
  load .a 0xB5 (.zpx z) s

/-- LDA `absy`, 0xB9 (R140). -/
def execLdaAbsy (w : Addr) (s : State) : Result :=
  load .a 0xB9 (.absy w) s

/-- LDA `absx`, 0xBD (R140). -/
def execLdaAbsx (w : Addr) (s : State) : Result :=
  load .a 0xBD (.absx w) s

/-- LDX `imm`, 0xA2 (R141). -/
def execLdxImm (v : Byte) (s : State) : Result :=
  load .x 0xA2 (.imm v) s

/-- LDX `zpg`, 0xA6 (R141). -/
def execLdxZpg (z : Byte) (s : State) : Result :=
  load .x 0xA6 (.zpg z) s

/-- LDX `abs`, 0xAE (R141). -/
def execLdxAbs (w : Addr) (s : State) : Result :=
  load .x 0xAE (.abs w) s

/-- LDX `zpy`, 0xB6 (R141). -/
def execLdxZpy (z : Byte) (s : State) : Result :=
  load .x 0xB6 (.zpy z) s

/-- LDX `absy`, 0xBE (R141). -/
def execLdxAbsy (w : Addr) (s : State) : Result :=
  load .x 0xBE (.absy w) s

/-- LDY `imm`, 0xA0 (R142). -/
def execLdyImm (v : Byte) (s : State) : Result :=
  load .y 0xA0 (.imm v) s

/-- LDY `zpg`, 0xA4 (R142). -/
def execLdyZpg (z : Byte) (s : State) : Result :=
  load .y 0xA4 (.zpg z) s

/-- LDY `abs`, 0xAC (R142). -/
def execLdyAbs (w : Addr) (s : State) : Result :=
  load .y 0xAC (.abs w) s

/-- LDY `zpx`, 0xB4 (R142). -/
def execLdyZpx (z : Byte) (s : State) : Result :=
  load .y 0xB4 (.zpx z) s

/-- LDY `absx`, 0xBC (R142). -/
def execLdyAbsx (w : Addr) (s : State) : Result :=
  load .y 0xBC (.absx w) s

/-- STA `indx`, 0x81 (R143). -/
def execStaIndx (z : Byte) (s : State) : Result :=
  store (s.reg .a) 0x81 (.indx z) s

/-- STA `zpg`, 0x85 (R143). -/
def execStaZpg (z : Byte) (s : State) : Result :=
  store (s.reg .a) 0x85 (.zpg z) s

/-- STA `abs`, 0x8D (R143). -/
def execStaAbs (w : Addr) (s : State) : Result :=
  store (s.reg .a) 0x8D (.abs w) s

/-- STA `indy`, 0x91 (R143). -/
def execStaIndy (z : Byte) (s : State) : Result :=
  store (s.reg .a) 0x91 (.indy z) s

/-- STA `zpi`, 0x92 (R143, CMOS). -/
def execStaZpi (z : Byte) (s : State) : Result :=
  store (s.reg .a) 0x92 (.zpi z) s

/-- STA `zpx`, 0x95 (R143). -/
def execStaZpx (z : Byte) (s : State) : Result :=
  store (s.reg .a) 0x95 (.zpx z) s

/-- STA `absy`, 0x99 (R143). -/
def execStaAbsy (w : Addr) (s : State) : Result :=
  store (s.reg .a) 0x99 (.absy w) s

/-- STA `absx`, 0x9D (R143). -/
def execStaAbsx (w : Addr) (s : State) : Result :=
  store (s.reg .a) 0x9D (.absx w) s

/-- STX `zpg`, 0x86 (R144). -/
def execStxZpg (z : Byte) (s : State) : Result :=
  store (s.reg .x) 0x86 (.zpg z) s

/-- STX `abs`, 0x8E (R144). -/
def execStxAbs (w : Addr) (s : State) : Result :=
  store (s.reg .x) 0x8E (.abs w) s

/-- STX `zpy`, 0x96 (R144). -/
def execStxZpy (z : Byte) (s : State) : Result :=
  store (s.reg .x) 0x96 (.zpy z) s

/-- STY `zpg`, 0x84 (R145). -/
def execStyZpg (z : Byte) (s : State) : Result :=
  store (s.reg .y) 0x84 (.zpg z) s

/-- STY `abs`, 0x8C (R145). -/
def execStyAbs (w : Addr) (s : State) : Result :=
  store (s.reg .y) 0x8C (.abs w) s

/-- STY `zpx`, 0x94 (R145). -/
def execStyZpx (z : Byte) (s : State) : Result :=
  store (s.reg .y) 0x94 (.zpx z) s

/-- STZ `zpg`, 0x64 (R146, CMOS). -/
def execStzZpg (z : Byte) (s : State) : Result :=
  store 0x00 0x64 (.zpg z) s

/-- STZ `zpx`, 0x74 (R146, CMOS). -/
def execStzZpx (z : Byte) (s : State) : Result :=
  store 0x00 0x74 (.zpx z) s

/-- STZ `abs`, 0x9C (R146, CMOS). -/
def execStzAbs (w : Addr) (s : State) : Result :=
  store 0x00 0x9C (.abs w) s

/-- STZ `absx`, 0x9E (R146, CMOS). -/
def execStzAbsx (w : Addr) (s : State) : Result :=
  store 0x00 0x9E (.absx w) s

/-- TAX `imp`, 0xAA (R147). -/
def execTax (s : State) : Result :=
  transfer (s.reg .a) .x 0xAA s

/-- TAY `imp`, 0xA8 (R148). -/
def execTay (s : State) : Result :=
  transfer (s.reg .a) .y 0xA8 s

/-- TXA `imp`, 0x8A (R149). -/
def execTxa (s : State) : Result :=
  transfer (s.reg .x) .a 0x8A s

/-- TYA `imp`, 0x98 (R150). -/
def execTya (s : State) : Result :=
  transfer (s.reg .y) .a 0x98 s

/-- TSX `imp`, 0xBA (R151). -/
def execTsx (s : State) : Result :=
  transfer s.sp .x 0xBA s

/-- TXS `imp`, 0x9A (R152). -/
def execTxs (s : State) : Result :=
  .next ((s.advance 0x9A 1).setSP s.x)

end Sys2Proof.Machine
end

