-- ==== Sys2Proof/Machine/Logic.lean ====
section
/-! DEFINITION. Logic, bit test, shifts and the CMOS bit operations (43_logic_shift_bit.md R190 to R215; the optional BIT
forms, 47_cmos_optional.md R287). -/

namespace Sys2Proof.Machine

/-- AND, ORA, EOR: A and N, Z (R190 to R192). -/
def logic (f : Byte → Byte → Byte) (op : Byte) (o : Operand) (s : State) : Result :=
  .next (((s.advanceOver op o).setReg .a (f s.a (o.value s))).setNZ (f s.a (o.value s)))

/-- BIT on memory: Z from A AND m, N and V from m; A is not written (R193, R287). -/
def bitMemory (op : Byte) (o : Operand) (s : State) : Result :=
  .next ((s.advanceOver op o).setP (s.p.bitTest s.a (o.value s)))

/-- BIT immediate: Z only (R193). -/
def bitImmediate (op : Byte) (v : Byte) (s : State) : Result :=
  .next ((s.advanceOver op (.imm v)).setP (s.p.testZ s.a v))

/-- A shift or rotate of A (R194 to R197). -/
def shiftAcc (f : Byte → Bool → Shifted) (op : Byte) (s : State) : Result :=
  .next (((s.advance op 1).setReg .a (f s.a s.p.c).r).setP (s.p.shifted (f s.a s.p.c)))

/-- A shift or rotate of a memory byte: one read, one write at the same address (R194 to R197). -/
def shiftMem (f : Byte → Bool → Shifted) (op : Byte) (o : Operand) (s : State) : Result :=
  .next (((s.advanceOver op o).write (o.ea s) (f (o.value s) s.p.c).r).setP (s.p.shifted (f (o.value s) s.p.c)))

/-- TSB and TRB: Z from A AND m before the write, then the modified byte; no other flag (R198, R199). -/
def testAndModify (f : Byte → Byte → Byte) (op : Byte) (o : Operand) (s : State) : Result :=
  .next (((s.advanceOver op o).write (o.ea s) (f (o.value s) s.a)).setP (s.p.testZ s.a (o.value s)))

/-- RMBn and SMBn: one bit of a zero-page byte; no flag (R200 to R215). -/
def modifyBit (f : Byte → Byte) (op : Byte) (z : Byte) (s : State) : Result :=
  .next ((s.advanceOver op (.zpg z)).write (zeroPage z) (f (s.read (zeroPage z))))

/-- AND `indx`, 0x21 (R190). -/
def execAndIndx (z : Byte) (s : State) : Result :=
  logic (· &&& ·) 0x21 (.indx z) s

/-- AND `zpg`, 0x25 (R190). -/
def execAndZpg (z : Byte) (s : State) : Result :=
  logic (· &&& ·) 0x25 (.zpg z) s

/-- AND `imm`, 0x29 (R190). -/
def execAndImm (v : Byte) (s : State) : Result :=
  logic (· &&& ·) 0x29 (.imm v) s

/-- AND `abs`, 0x2D (R190). -/
def execAndAbs (w : Addr) (s : State) : Result :=
  logic (· &&& ·) 0x2D (.abs w) s

/-- AND `indy`, 0x31 (R190). -/
def execAndIndy (z : Byte) (s : State) : Result :=
  logic (· &&& ·) 0x31 (.indy z) s

/-- AND `zpi`, 0x32 (R190, CMOS). -/
def execAndZpi (z : Byte) (s : State) : Result :=
  logic (· &&& ·) 0x32 (.zpi z) s

/-- AND `zpx`, 0x35 (R190). -/
def execAndZpx (z : Byte) (s : State) : Result :=
  logic (· &&& ·) 0x35 (.zpx z) s

/-- AND `absy`, 0x39 (R190). -/
def execAndAbsy (w : Addr) (s : State) : Result :=
  logic (· &&& ·) 0x39 (.absy w) s

/-- AND `absx`, 0x3D (R190). -/
def execAndAbsx (w : Addr) (s : State) : Result :=
  logic (· &&& ·) 0x3D (.absx w) s

/-- ORA `indx`, 0x01 (R191). -/
def execOraIndx (z : Byte) (s : State) : Result :=
  logic (· ||| ·) 0x01 (.indx z) s

/-- ORA `zpg`, 0x05 (R191). -/
def execOraZpg (z : Byte) (s : State) : Result :=
  logic (· ||| ·) 0x05 (.zpg z) s

/-- ORA `imm`, 0x09 (R191). -/
def execOraImm (v : Byte) (s : State) : Result :=
  logic (· ||| ·) 0x09 (.imm v) s

/-- ORA `abs`, 0x0D (R191). -/
def execOraAbs (w : Addr) (s : State) : Result :=
  logic (· ||| ·) 0x0D (.abs w) s

/-- ORA `indy`, 0x11 (R191). -/
def execOraIndy (z : Byte) (s : State) : Result :=
  logic (· ||| ·) 0x11 (.indy z) s

/-- ORA `zpi`, 0x12 (R191, CMOS). -/
def execOraZpi (z : Byte) (s : State) : Result :=
  logic (· ||| ·) 0x12 (.zpi z) s

/-- ORA `zpx`, 0x15 (R191). -/
def execOraZpx (z : Byte) (s : State) : Result :=
  logic (· ||| ·) 0x15 (.zpx z) s

/-- ORA `absy`, 0x19 (R191). -/
def execOraAbsy (w : Addr) (s : State) : Result :=
  logic (· ||| ·) 0x19 (.absy w) s

/-- ORA `absx`, 0x1D (R191). -/
def execOraAbsx (w : Addr) (s : State) : Result :=
  logic (· ||| ·) 0x1D (.absx w) s

/-- EOR `indx`, 0x41 (R192). -/
def execEorIndx (z : Byte) (s : State) : Result :=
  logic (· ^^^ ·) 0x41 (.indx z) s

/-- EOR `zpg`, 0x45 (R192). -/
def execEorZpg (z : Byte) (s : State) : Result :=
  logic (· ^^^ ·) 0x45 (.zpg z) s

/-- EOR `imm`, 0x49 (R192). -/
def execEorImm (v : Byte) (s : State) : Result :=
  logic (· ^^^ ·) 0x49 (.imm v) s

/-- EOR `abs`, 0x4D (R192). -/
def execEorAbs (w : Addr) (s : State) : Result :=
  logic (· ^^^ ·) 0x4D (.abs w) s

/-- EOR `indy`, 0x51 (R192). -/
def execEorIndy (z : Byte) (s : State) : Result :=
  logic (· ^^^ ·) 0x51 (.indy z) s

/-- EOR `zpi`, 0x52 (R192, CMOS). -/
def execEorZpi (z : Byte) (s : State) : Result :=
  logic (· ^^^ ·) 0x52 (.zpi z) s

/-- EOR `zpx`, 0x55 (R192). -/
def execEorZpx (z : Byte) (s : State) : Result :=
  logic (· ^^^ ·) 0x55 (.zpx z) s

/-- EOR `absy`, 0x59 (R192). -/
def execEorAbsy (w : Addr) (s : State) : Result :=
  logic (· ^^^ ·) 0x59 (.absy w) s

/-- EOR `absx`, 0x5D (R192). -/
def execEorAbsx (w : Addr) (s : State) : Result :=
  logic (· ^^^ ·) 0x5D (.absx w) s

/-- BIT `zpg`, 0x24 (R193). -/
def execBitZpg (z : Byte) (s : State) : Result :=
  bitMemory 0x24 (.zpg z) s

/-- BIT `abs`, 0x2C (R193). -/
def execBitAbs (w : Addr) (s : State) : Result :=
  bitMemory 0x2C (.abs w) s

/-- BIT `zpx`, 0x34 (R287, WDC_EXTRAS). -/
def execBitZpx (z : Byte) (s : State) : Result :=
  bitMemory 0x34 (.zpx z) s

/-- BIT `absx`, 0x3C (R287, WDC_EXTRAS). -/
def execBitAbsx (w : Addr) (s : State) : Result :=
  bitMemory 0x3C (.absx w) s

/-- BIT `imm`, 0x89 (R193, CMOS). -/
def execBitImm (v : Byte) (s : State) : Result :=
  bitImmediate 0x89 v s

/-- ASL `zpg`, 0x06 (R194). -/
def execAslZpg (z : Byte) (s : State) : Result :=
  shiftMem shiftAsl 0x06 (.zpg z) s

/-- ASL `acc`, 0x0A (R194). -/
def execAslAcc (s : State) : Result :=
  shiftAcc shiftAsl 0x0A s

/-- ASL `abs`, 0x0E (R194). -/
def execAslAbs (w : Addr) (s : State) : Result :=
  shiftMem shiftAsl 0x0E (.abs w) s

/-- ASL `zpx`, 0x16 (R194). -/
def execAslZpx (z : Byte) (s : State) : Result :=
  shiftMem shiftAsl 0x16 (.zpx z) s

/-- ASL `absx`, 0x1E (R194). -/
def execAslAbsx (w : Addr) (s : State) : Result :=
  shiftMem shiftAsl 0x1E (.absx w) s

/-- LSR `zpg`, 0x46 (R195). -/
def execLsrZpg (z : Byte) (s : State) : Result :=
  shiftMem shiftLsr 0x46 (.zpg z) s

/-- LSR `acc`, 0x4A (R195). -/
def execLsrAcc (s : State) : Result :=
  shiftAcc shiftLsr 0x4A s

/-- LSR `abs`, 0x4E (R195). -/
def execLsrAbs (w : Addr) (s : State) : Result :=
  shiftMem shiftLsr 0x4E (.abs w) s

/-- LSR `zpx`, 0x56 (R195). -/
def execLsrZpx (z : Byte) (s : State) : Result :=
  shiftMem shiftLsr 0x56 (.zpx z) s

/-- LSR `absx`, 0x5E (R195). -/
def execLsrAbsx (w : Addr) (s : State) : Result :=
  shiftMem shiftLsr 0x5E (.absx w) s

/-- ROL `zpg`, 0x26 (R196). -/
def execRolZpg (z : Byte) (s : State) : Result :=
  shiftMem shiftRol 0x26 (.zpg z) s

/-- ROL `acc`, 0x2A (R196). -/
def execRolAcc (s : State) : Result :=
  shiftAcc shiftRol 0x2A s

/-- ROL `abs`, 0x2E (R196). -/
def execRolAbs (w : Addr) (s : State) : Result :=
  shiftMem shiftRol 0x2E (.abs w) s

/-- ROL `zpx`, 0x36 (R196). -/
def execRolZpx (z : Byte) (s : State) : Result :=
  shiftMem shiftRol 0x36 (.zpx z) s

/-- ROL `absx`, 0x3E (R196). -/
def execRolAbsx (w : Addr) (s : State) : Result :=
  shiftMem shiftRol 0x3E (.absx w) s

/-- ROR `zpg`, 0x66 (R197). -/
def execRorZpg (z : Byte) (s : State) : Result :=
  shiftMem shiftRor 0x66 (.zpg z) s

/-- ROR `acc`, 0x6A (R197). -/
def execRorAcc (s : State) : Result :=
  shiftAcc shiftRor 0x6A s

/-- ROR `abs`, 0x6E (R197). -/
def execRorAbs (w : Addr) (s : State) : Result :=
  shiftMem shiftRor 0x6E (.abs w) s

/-- ROR `zpx`, 0x76 (R197). -/
def execRorZpx (z : Byte) (s : State) : Result :=
  shiftMem shiftRor 0x76 (.zpx z) s

/-- ROR `absx`, 0x7E (R197). -/
def execRorAbsx (w : Addr) (s : State) : Result :=
  shiftMem shiftRor 0x7E (.absx w) s

/-- TSB `zpg`, 0x04 (R198, CMOS). -/
def execTsbZpg (z : Byte) (s : State) : Result :=
  testAndModify (fun m a => m ||| a) 0x04 (.zpg z) s

/-- TSB `abs`, 0x0C (R198, CMOS). -/
def execTsbAbs (w : Addr) (s : State) : Result :=
  testAndModify (fun m a => m ||| a) 0x0C (.abs w) s

/-- TRB `zpg`, 0x14 (R199, CMOS). -/
def execTrbZpg (z : Byte) (s : State) : Result :=
  testAndModify (fun m a => m &&& (a ^^^ 0xFF)) 0x14 (.zpg z) s

/-- TRB `abs`, 0x1C (R199, CMOS). -/
def execTrbAbs (w : Addr) (s : State) : Result :=
  testAndModify (fun m a => m &&& (a ^^^ 0xFF)) 0x1C (.abs w) s

/-- RMB0 `zpg`, 0x07 (R200, CMOS). -/
def execRmb0 (z : Byte) (s : State) : Result :=
  modifyBit (· &&& (bitMask 0 ^^^ 0xFF)) 0x07 z s

/-- RMB1 `zpg`, 0x17 (R201, CMOS). -/
def execRmb1 (z : Byte) (s : State) : Result :=
  modifyBit (· &&& (bitMask 1 ^^^ 0xFF)) 0x17 z s

/-- RMB2 `zpg`, 0x27 (R202, CMOS). -/
def execRmb2 (z : Byte) (s : State) : Result :=
  modifyBit (· &&& (bitMask 2 ^^^ 0xFF)) 0x27 z s

/-- RMB3 `zpg`, 0x37 (R203, CMOS). -/
def execRmb3 (z : Byte) (s : State) : Result :=
  modifyBit (· &&& (bitMask 3 ^^^ 0xFF)) 0x37 z s

/-- RMB4 `zpg`, 0x47 (R204, CMOS). -/
def execRmb4 (z : Byte) (s : State) : Result :=
  modifyBit (· &&& (bitMask 4 ^^^ 0xFF)) 0x47 z s

/-- RMB5 `zpg`, 0x57 (R205, CMOS). -/
def execRmb5 (z : Byte) (s : State) : Result :=
  modifyBit (· &&& (bitMask 5 ^^^ 0xFF)) 0x57 z s

/-- RMB6 `zpg`, 0x67 (R206, CMOS). -/
def execRmb6 (z : Byte) (s : State) : Result :=
  modifyBit (· &&& (bitMask 6 ^^^ 0xFF)) 0x67 z s

/-- RMB7 `zpg`, 0x77 (R207, CMOS). -/
def execRmb7 (z : Byte) (s : State) : Result :=
  modifyBit (· &&& (bitMask 7 ^^^ 0xFF)) 0x77 z s

/-- SMB0 `zpg`, 0x87 (R208, CMOS). -/
def execSmb0 (z : Byte) (s : State) : Result :=
  modifyBit (· ||| bitMask 0) 0x87 z s

/-- SMB1 `zpg`, 0x97 (R209, CMOS). -/
def execSmb1 (z : Byte) (s : State) : Result :=
  modifyBit (· ||| bitMask 1) 0x97 z s

/-- SMB2 `zpg`, 0xA7 (R210, CMOS). -/
def execSmb2 (z : Byte) (s : State) : Result :=
  modifyBit (· ||| bitMask 2) 0xA7 z s

/-- SMB3 `zpg`, 0xB7 (R211, CMOS). -/
def execSmb3 (z : Byte) (s : State) : Result :=
  modifyBit (· ||| bitMask 3) 0xB7 z s

/-- SMB4 `zpg`, 0xC7 (R212, CMOS). -/
def execSmb4 (z : Byte) (s : State) : Result :=
  modifyBit (· ||| bitMask 4) 0xC7 z s

/-- SMB5 `zpg`, 0xD7 (R213, CMOS). -/
def execSmb5 (z : Byte) (s : State) : Result :=
  modifyBit (· ||| bitMask 5) 0xD7 z s

/-- SMB6 `zpg`, 0xE7 (R214, CMOS). -/
def execSmb6 (z : Byte) (s : State) : Result :=
  modifyBit (· ||| bitMask 6) 0xE7 z s

/-- SMB7 `zpg`, 0xF7 (R215, CMOS). -/
def execSmb7 (z : Byte) (s : State) : Result :=
  modifyBit (· ||| bitMask 7) 0xF7 z s

end Sys2Proof.Machine
end

