-- ==== Sys2Proof/Machine/Stack.lean ====
section
/-! DEFINITION. Stack transfers, flag instructions and the NOPs (45_stack_flags_misc.md R240 to R255; 47_cmos_optional.md R289). -/

namespace Sys2Proof.Machine

/-- Push a byte; no flag (R240 to R243). -/
def pushByte (v : Byte) (op : Byte) (s : State) : Result :=
  .next ((s.advance op 1).push v)

/-- Pull a register and set N and Z from it (R244, R246, R247). -/
def pullReg (r : Reg) (op : Byte) (s : State) : Result :=
  let s1 := s.advance op 1
  .next ((s1.dropByte.setReg r s1.popByte).setNZ s1.popByte)

/-- A flag instruction: only P changes (R248 to R254). -/
def withStatus (p : Status) (op : Byte) (s : State) : Result :=
  .next ((s.advance op 1).setP p)

/-- A NOP of `len` bytes: only PC and cycles change (R255, R289). -/
def noOperation (op : Byte) (len : Nat) (s : State) : Result :=
  .next (s.advance op len)

/-- PHA `imp`, 0x48 (R240). -/
def execPha (s : State) : Result :=
  pushByte (s.reg .a) 0x48 s

/-- PHP `imp`, 0x08 (R241). -/
def execPhp (s : State) : Result :=
  pushByte s.p.pushed 0x08 s

/-- PHX `imp`, 0xDA (R242, CMOS). -/
def execPhx (s : State) : Result :=
  pushByte (s.reg .x) 0xDA s

/-- PHY `imp`, 0x5A (R243, CMOS). -/
def execPhy (s : State) : Result :=
  pushByte (s.reg .y) 0x5A s

/-- PLA `imp`, 0x68 (R244). -/
def execPla (s : State) : Result :=
  pullReg .a 0x68 s

/-- PLP `imp`, 0x28 (R245). -/
def execPlp (s : State) : Result :=
  let s1 := s.advance 0x28 1
  .next (s1.dropByte.setP (.pulled s1.popByte))

/-- PLX `imp`, 0xFA (R246, CMOS). -/
def execPlx (s : State) : Result :=
  pullReg .x 0xFA s

/-- PLY `imp`, 0x7A (R247, CMOS). -/
def execPly (s : State) : Result :=
  pullReg .y 0x7A s

/-- CLC `imp`, 0x18 (R248). -/
def execClc (s : State) : Result :=
  withStatus { s.p with c := false } 0x18 s

/-- SEC `imp`, 0x38 (R249). -/
def execSec (s : State) : Result :=
  withStatus { s.p with c := true } 0x38 s

/-- CLI `imp`, 0x58 (R250). -/
def execCli (s : State) : Result :=
  withStatus { s.p with i := false } 0x58 s

/-- SEI `imp`, 0x78 (R251). -/
def execSei (s : State) : Result :=
  withStatus { s.p with i := true } 0x78 s

/-- CLD `imp`, 0xD8 (R252). -/
def execCld (s : State) : Result :=
  withStatus { s.p with d := false } 0xD8 s

/-- SED `imp`, 0xF8 (R253). -/
def execSed (s : State) : Result :=
  withStatus { s.p with d := true } 0xF8 s

/-- CLV `imp`, 0xB8 (R254). -/
def execClv (s : State) : Result :=
  withStatus { s.p with v := false } 0xB8 s

/-- NOP `imm`, 0x02 (R289, WDC_EXTRAS). -/
def execNop02 (_v : Byte) (s : State) : Result :=
  noOperation 0x02 2 s

/-- NOP `imp`, 0x03 (R289, WDC_EXTRAS). -/
def execNop03 (s : State) : Result :=
  noOperation 0x03 1 s

/-- NOP `imp`, 0x0B (R289, WDC_EXTRAS). -/
def execNop0B (s : State) : Result :=
  noOperation 0x0B 1 s

/-- NOP `imp`, 0x13 (R289, WDC_EXTRAS). -/
def execNop13 (s : State) : Result :=
  noOperation 0x13 1 s

/-- NOP `imp`, 0x1B (R289, WDC_EXTRAS). -/
def execNop1B (s : State) : Result :=
  noOperation 0x1B 1 s

/-- NOP `imm`, 0x22 (R289, WDC_EXTRAS). -/
def execNop22 (_v : Byte) (s : State) : Result :=
  noOperation 0x22 2 s

/-- NOP `imp`, 0x23 (R289, WDC_EXTRAS). -/
def execNop23 (s : State) : Result :=
  noOperation 0x23 1 s

/-- NOP `imp`, 0x2B (R289, WDC_EXTRAS). -/
def execNop2B (s : State) : Result :=
  noOperation 0x2B 1 s

/-- NOP `imp`, 0x33 (R289, WDC_EXTRAS). -/
def execNop33 (s : State) : Result :=
  noOperation 0x33 1 s

/-- NOP `imp`, 0x3B (R289, WDC_EXTRAS). -/
def execNop3B (s : State) : Result :=
  noOperation 0x3B 1 s

/-- NOP `imm`, 0x42 (R289, WDC_EXTRAS). -/
def execNop42 (_v : Byte) (s : State) : Result :=
  noOperation 0x42 2 s

/-- NOP `imp`, 0x43 (R289, WDC_EXTRAS). -/
def execNop43 (s : State) : Result :=
  noOperation 0x43 1 s

/-- NOP `zpg`, 0x44 (R289, WDC_EXTRAS). -/
def execNop44 (_z : Byte) (s : State) : Result :=
  noOperation 0x44 2 s

/-- NOP `imp`, 0x4B (R289, WDC_EXTRAS). -/
def execNop4B (s : State) : Result :=
  noOperation 0x4B 1 s

/-- NOP `imp`, 0x53 (R289, WDC_EXTRAS). -/
def execNop53 (s : State) : Result :=
  noOperation 0x53 1 s

/-- NOP `zpx`, 0x54 (R289, WDC_EXTRAS). -/
def execNop54 (_z : Byte) (s : State) : Result :=
  noOperation 0x54 2 s

/-- NOP `imp`, 0x5B (R289, WDC_EXTRAS). -/
def execNop5B (s : State) : Result :=
  noOperation 0x5B 1 s

/-- NOP `abs`, 0x5C (R289, WDC_EXTRAS). -/
def execNop5C (_w : Addr) (s : State) : Result :=
  noOperation 0x5C 3 s

/-- NOP `imm`, 0x62 (R289, WDC_EXTRAS). -/
def execNop62 (_v : Byte) (s : State) : Result :=
  noOperation 0x62 2 s

/-- NOP `imp`, 0x63 (R289, WDC_EXTRAS). -/
def execNop63 (s : State) : Result :=
  noOperation 0x63 1 s

/-- NOP `imp`, 0x6B (R289, WDC_EXTRAS). -/
def execNop6B (s : State) : Result :=
  noOperation 0x6B 1 s

/-- NOP `imp`, 0x73 (R289, WDC_EXTRAS). -/
def execNop73 (s : State) : Result :=
  noOperation 0x73 1 s

/-- NOP `imp`, 0x7B (R289, WDC_EXTRAS). -/
def execNop7B (s : State) : Result :=
  noOperation 0x7B 1 s

/-- NOP `imm`, 0x82 (R289, WDC_EXTRAS). -/
def execNop82 (_v : Byte) (s : State) : Result :=
  noOperation 0x82 2 s

/-- NOP `imp`, 0x83 (R289, WDC_EXTRAS). -/
def execNop83 (s : State) : Result :=
  noOperation 0x83 1 s

/-- NOP `imp`, 0x8B (R289, WDC_EXTRAS). -/
def execNop8B (s : State) : Result :=
  noOperation 0x8B 1 s

/-- NOP `imp`, 0x93 (R289, WDC_EXTRAS). -/
def execNop93 (s : State) : Result :=
  noOperation 0x93 1 s

/-- NOP `imp`, 0x9B (R289, WDC_EXTRAS). -/
def execNop9B (s : State) : Result :=
  noOperation 0x9B 1 s

/-- NOP `imp`, 0xA3 (R289, WDC_EXTRAS). -/
def execNopA3 (s : State) : Result :=
  noOperation 0xA3 1 s

/-- NOP `imp`, 0xAB (R289, WDC_EXTRAS). -/
def execNopAB (s : State) : Result :=
  noOperation 0xAB 1 s

/-- NOP `imp`, 0xB3 (R289, WDC_EXTRAS). -/
def execNopB3 (s : State) : Result :=
  noOperation 0xB3 1 s

/-- NOP `imp`, 0xBB (R289, WDC_EXTRAS). -/
def execNopBB (s : State) : Result :=
  noOperation 0xBB 1 s

/-- NOP `imm`, 0xC2 (R289, WDC_EXTRAS). -/
def execNopC2 (_v : Byte) (s : State) : Result :=
  noOperation 0xC2 2 s

/-- NOP `imp`, 0xC3 (R289, WDC_EXTRAS). -/
def execNopC3 (s : State) : Result :=
  noOperation 0xC3 1 s

/-- NOP `imp`, 0xD3 (R289, WDC_EXTRAS). -/
def execNopD3 (s : State) : Result :=
  noOperation 0xD3 1 s

/-- NOP `zpx`, 0xD4 (R289, WDC_EXTRAS). -/
def execNopD4 (_z : Byte) (s : State) : Result :=
  noOperation 0xD4 2 s

/-- NOP `abs`, 0xDC (R289, WDC_EXTRAS). -/
def execNopDC (_w : Addr) (s : State) : Result :=
  noOperation 0xDC 3 s

/-- NOP `imm`, 0xE2 (R289, WDC_EXTRAS). -/
def execNopE2 (_v : Byte) (s : State) : Result :=
  noOperation 0xE2 2 s

/-- NOP `imp`, 0xE3 (R289, WDC_EXTRAS). -/
def execNopE3 (s : State) : Result :=
  noOperation 0xE3 1 s

/-- NOP `imp`, 0xEA (R255). -/
def execNop (s : State) : Result :=
  noOperation 0xEA 1 s

/-- NOP `imp`, 0xEB (R289, WDC_EXTRAS). -/
def execNopEB (s : State) : Result :=
  noOperation 0xEB 1 s

/-- NOP `imp`, 0xF3 (R289, WDC_EXTRAS). -/
def execNopF3 (s : State) : Result :=
  noOperation 0xF3 1 s

/-- NOP `zpx`, 0xF4 (R289, WDC_EXTRAS). -/
def execNopF4 (_z : Byte) (s : State) : Result :=
  noOperation 0xF4 2 s

/-- NOP `imp`, 0xFB (R289, WDC_EXTRAS). -/
def execNopFB (s : State) : Result :=
  noOperation 0xFB 1 s

/-- NOP `abs`, 0xFC (R289, WDC_EXTRAS). -/
def execNopFC (_w : Addr) (s : State) : Result :=
  noOperation 0xFC 3 s

end Sys2Proof.Machine
end

