-- ==== Sys2Proof/Machine/System.lean ====
section
/-! DEFINITION. BRK, RTI, WAI (46_system.md R260 to R262) and the optional STP (47_cmos_optional.md R288). -/

namespace Sys2Proof.Machine



/-- BRK `imp`, 0x00 (R260). -/
def execBrk (s : State) : Result :=
  let s1 := s.advance 0x00 1
  .next ((s1.setPC (s1.pc + 1)).takeException irqVector s.p.pushed true)

/-- RTI `imp`, 0x40 (R261). -/
def execRti (s : State) : Result :=
  .next (s.advance 0x40 1).returnFromException

/-- WAI `imp`, 0xCB (R262, CMOS). -/
def execWai (s : State) : Result :=
  .next { s.advance 0xCB 1 with waiting := true }

/-- STP `imp`, 0xDB (R288, WDC_EXTRAS). -/
def execStp (s : State) : Result :=
  .next { s.advance 0xDB 1 with stopped := true }

end Sys2Proof.Machine
end

