-- ==== Sys2Proof/Machine/Dispatch.lean ====
section
/-! DEFINITION. The dispatch: one arm per constructor of Instr, each one direct call of that instruction's own meaning
(30_encoding.md R89). -/

namespace Sys2Proof.Machine

open Sys2Proof

def exec (i : Instr) (s : State) : Host.Outcome State Fault Refusal :=
  match i with
  | .brk => Sys2Proof.Machine.execBrk s
  | .oraIndx z => Sys2Proof.Machine.execOraIndx z s
  | .nop02 v => Sys2Proof.Machine.execNop02 v s
  | .nop03 => Sys2Proof.Machine.execNop03 s
  | .tsbZpg z => Sys2Proof.Machine.execTsbZpg z s
  | .oraZpg z => Sys2Proof.Machine.execOraZpg z s
  | .aslZpg z => Sys2Proof.Machine.execAslZpg z s
  | .rmb0 z => Sys2Proof.Machine.execRmb0 z s
  | .php => Sys2Proof.Machine.execPhp s
  | .oraImm v => Sys2Proof.Machine.execOraImm v s
  | .aslAcc => Sys2Proof.Machine.execAslAcc s
  | .nop0B => Sys2Proof.Machine.execNop0B s
  | .tsbAbs w => Sys2Proof.Machine.execTsbAbs w s
  | .oraAbs w => Sys2Proof.Machine.execOraAbs w s
  | .aslAbs w => Sys2Proof.Machine.execAslAbs w s
  | .bbr0 z off => Sys2Proof.Machine.execBbr0 z off s
  | .bpl off => Sys2Proof.Machine.execBpl off s
  | .oraIndy z => Sys2Proof.Machine.execOraIndy z s
  | .oraZpi z => Sys2Proof.Machine.execOraZpi z s
  | .nop13 => Sys2Proof.Machine.execNop13 s
  | .trbZpg z => Sys2Proof.Machine.execTrbZpg z s
  | .oraZpx z => Sys2Proof.Machine.execOraZpx z s
  | .aslZpx z => Sys2Proof.Machine.execAslZpx z s
  | .rmb1 z => Sys2Proof.Machine.execRmb1 z s
  | .clc => Sys2Proof.Machine.execClc s
  | .oraAbsy w => Sys2Proof.Machine.execOraAbsy w s
  | .incAcc => Sys2Proof.Machine.execIncAcc s
  | .nop1B => Sys2Proof.Machine.execNop1B s
  | .trbAbs w => Sys2Proof.Machine.execTrbAbs w s
  | .oraAbsx w => Sys2Proof.Machine.execOraAbsx w s
  | .aslAbsx w => Sys2Proof.Machine.execAslAbsx w s
  | .bbr1 z off => Sys2Proof.Machine.execBbr1 z off s
  | .jsr w => Sys2Proof.Machine.execJsr w s
  | .andIndx z => Sys2Proof.Machine.execAndIndx z s
  | .nop22 v => Sys2Proof.Machine.execNop22 v s
  | .nop23 => Sys2Proof.Machine.execNop23 s
  | .bitZpg z => Sys2Proof.Machine.execBitZpg z s
  | .andZpg z => Sys2Proof.Machine.execAndZpg z s
  | .rolZpg z => Sys2Proof.Machine.execRolZpg z s
  | .rmb2 z => Sys2Proof.Machine.execRmb2 z s
  | .plp => Sys2Proof.Machine.execPlp s
  | .andImm v => Sys2Proof.Machine.execAndImm v s
  | .rolAcc => Sys2Proof.Machine.execRolAcc s
  | .nop2B => Sys2Proof.Machine.execNop2B s
  | .bitAbs w => Sys2Proof.Machine.execBitAbs w s
  | .andAbs w => Sys2Proof.Machine.execAndAbs w s
  | .rolAbs w => Sys2Proof.Machine.execRolAbs w s
  | .bbr2 z off => Sys2Proof.Machine.execBbr2 z off s
  | .bmi off => Sys2Proof.Machine.execBmi off s
  | .andIndy z => Sys2Proof.Machine.execAndIndy z s
  | .andZpi z => Sys2Proof.Machine.execAndZpi z s
  | .nop33 => Sys2Proof.Machine.execNop33 s
  | .bitZpx z => Sys2Proof.Machine.execBitZpx z s
  | .andZpx z => Sys2Proof.Machine.execAndZpx z s
  | .rolZpx z => Sys2Proof.Machine.execRolZpx z s
  | .rmb3 z => Sys2Proof.Machine.execRmb3 z s
  | .sec => Sys2Proof.Machine.execSec s
  | .andAbsy w => Sys2Proof.Machine.execAndAbsy w s
  | .decAcc => Sys2Proof.Machine.execDecAcc s
  | .nop3B => Sys2Proof.Machine.execNop3B s
  | .bitAbsx w => Sys2Proof.Machine.execBitAbsx w s
  | .andAbsx w => Sys2Proof.Machine.execAndAbsx w s
  | .rolAbsx w => Sys2Proof.Machine.execRolAbsx w s
  | .bbr3 z off => Sys2Proof.Machine.execBbr3 z off s
  | .rti => Sys2Proof.Machine.execRti s
  | .eorIndx z => Sys2Proof.Machine.execEorIndx z s
  | .nop42 v => Sys2Proof.Machine.execNop42 v s
  | .nop43 => Sys2Proof.Machine.execNop43 s
  | .nop44 z => Sys2Proof.Machine.execNop44 z s
  | .eorZpg z => Sys2Proof.Machine.execEorZpg z s
  | .lsrZpg z => Sys2Proof.Machine.execLsrZpg z s
  | .rmb4 z => Sys2Proof.Machine.execRmb4 z s
  | .pha => Sys2Proof.Machine.execPha s
  | .eorImm v => Sys2Proof.Machine.execEorImm v s
  | .lsrAcc => Sys2Proof.Machine.execLsrAcc s
  | .nop4B => Sys2Proof.Machine.execNop4B s
  | .jmpAbs w => Sys2Proof.Machine.execJmpAbs w s
  | .eorAbs w => Sys2Proof.Machine.execEorAbs w s
  | .lsrAbs w => Sys2Proof.Machine.execLsrAbs w s
  | .bbr4 z off => Sys2Proof.Machine.execBbr4 z off s
  | .bvc off => Sys2Proof.Machine.execBvc off s
  | .eorIndy z => Sys2Proof.Machine.execEorIndy z s
  | .eorZpi z => Sys2Proof.Machine.execEorZpi z s
  | .nop53 => Sys2Proof.Machine.execNop53 s
  | .nop54 z => Sys2Proof.Machine.execNop54 z s
  | .eorZpx z => Sys2Proof.Machine.execEorZpx z s
  | .lsrZpx z => Sys2Proof.Machine.execLsrZpx z s
  | .rmb5 z => Sys2Proof.Machine.execRmb5 z s
  | .cli => Sys2Proof.Machine.execCli s
  | .eorAbsy w => Sys2Proof.Machine.execEorAbsy w s
  | .phy => Sys2Proof.Machine.execPhy s
  | .nop5B => Sys2Proof.Machine.execNop5B s
  | .nop5C w => Sys2Proof.Machine.execNop5C w s
  | .eorAbsx w => Sys2Proof.Machine.execEorAbsx w s
  | .lsrAbsx w => Sys2Proof.Machine.execLsrAbsx w s
  | .bbr5 z off => Sys2Proof.Machine.execBbr5 z off s
  | .rts => Sys2Proof.Machine.execRts s
  | .adcIndx z => Sys2Proof.Machine.execAdcIndx z s
  | .nop62 v => Sys2Proof.Machine.execNop62 v s
  | .nop63 => Sys2Proof.Machine.execNop63 s
  | .stzZpg z => Sys2Proof.Machine.execStzZpg z s
  | .adcZpg z => Sys2Proof.Machine.execAdcZpg z s
  | .rorZpg z => Sys2Proof.Machine.execRorZpg z s
  | .rmb6 z => Sys2Proof.Machine.execRmb6 z s
  | .pla => Sys2Proof.Machine.execPla s
  | .adcImm v => Sys2Proof.Machine.execAdcImm v s
  | .rorAcc => Sys2Proof.Machine.execRorAcc s
  | .nop6B => Sys2Proof.Machine.execNop6B s
  | .jmpInd w => Sys2Proof.Machine.execJmpInd w s
  | .adcAbs w => Sys2Proof.Machine.execAdcAbs w s
  | .rorAbs w => Sys2Proof.Machine.execRorAbs w s
  | .bbr6 z off => Sys2Proof.Machine.execBbr6 z off s
  | .bvs off => Sys2Proof.Machine.execBvs off s
  | .adcIndy z => Sys2Proof.Machine.execAdcIndy z s
  | .adcZpi z => Sys2Proof.Machine.execAdcZpi z s
  | .nop73 => Sys2Proof.Machine.execNop73 s
  | .stzZpx z => Sys2Proof.Machine.execStzZpx z s
  | .adcZpx z => Sys2Proof.Machine.execAdcZpx z s
  | .rorZpx z => Sys2Proof.Machine.execRorZpx z s
  | .rmb7 z => Sys2Proof.Machine.execRmb7 z s
  | .sei => Sys2Proof.Machine.execSei s
  | .adcAbsy w => Sys2Proof.Machine.execAdcAbsy w s
  | .ply => Sys2Proof.Machine.execPly s
  | .nop7B => Sys2Proof.Machine.execNop7B s
  | .jmpIax w => Sys2Proof.Machine.execJmpIax w s
  | .adcAbsx w => Sys2Proof.Machine.execAdcAbsx w s
  | .rorAbsx w => Sys2Proof.Machine.execRorAbsx w s
  | .bbr7 z off => Sys2Proof.Machine.execBbr7 z off s
  | .bra off => Sys2Proof.Machine.execBra off s
  | .staIndx z => Sys2Proof.Machine.execStaIndx z s
  | .nop82 v => Sys2Proof.Machine.execNop82 v s
  | .nop83 => Sys2Proof.Machine.execNop83 s
  | .styZpg z => Sys2Proof.Machine.execStyZpg z s
  | .staZpg z => Sys2Proof.Machine.execStaZpg z s
  | .stxZpg z => Sys2Proof.Machine.execStxZpg z s
  | .smb0 z => Sys2Proof.Machine.execSmb0 z s
  | .dey => Sys2Proof.Machine.execDey s
  | .bitImm v => Sys2Proof.Machine.execBitImm v s
  | .txa => Sys2Proof.Machine.execTxa s
  | .nop8B => Sys2Proof.Machine.execNop8B s
  | .styAbs w => Sys2Proof.Machine.execStyAbs w s
  | .staAbs w => Sys2Proof.Machine.execStaAbs w s
  | .stxAbs w => Sys2Proof.Machine.execStxAbs w s
  | .bbs0 z off => Sys2Proof.Machine.execBbs0 z off s
  | .bcc off => Sys2Proof.Machine.execBcc off s
  | .staIndy z => Sys2Proof.Machine.execStaIndy z s
  | .staZpi z => Sys2Proof.Machine.execStaZpi z s
  | .nop93 => Sys2Proof.Machine.execNop93 s
  | .styZpx z => Sys2Proof.Machine.execStyZpx z s
  | .staZpx z => Sys2Proof.Machine.execStaZpx z s
  | .stxZpy z => Sys2Proof.Machine.execStxZpy z s
  | .smb1 z => Sys2Proof.Machine.execSmb1 z s
  | .tya => Sys2Proof.Machine.execTya s
  | .staAbsy w => Sys2Proof.Machine.execStaAbsy w s
  | .txs => Sys2Proof.Machine.execTxs s
  | .nop9B => Sys2Proof.Machine.execNop9B s
  | .stzAbs w => Sys2Proof.Machine.execStzAbs w s
  | .staAbsx w => Sys2Proof.Machine.execStaAbsx w s
  | .stzAbsx w => Sys2Proof.Machine.execStzAbsx w s
  | .bbs1 z off => Sys2Proof.Machine.execBbs1 z off s
  | .ldyImm v => Sys2Proof.Machine.execLdyImm v s
  | .ldaIndx z => Sys2Proof.Machine.execLdaIndx z s
  | .ldxImm v => Sys2Proof.Machine.execLdxImm v s
  | .nopA3 => Sys2Proof.Machine.execNopA3 s
  | .ldyZpg z => Sys2Proof.Machine.execLdyZpg z s
  | .ldaZpg z => Sys2Proof.Machine.execLdaZpg z s
  | .ldxZpg z => Sys2Proof.Machine.execLdxZpg z s
  | .smb2 z => Sys2Proof.Machine.execSmb2 z s
  | .tay => Sys2Proof.Machine.execTay s
  | .ldaImm v => Sys2Proof.Machine.execLdaImm v s
  | .tax => Sys2Proof.Machine.execTax s
  | .nopAB => Sys2Proof.Machine.execNopAB s
  | .ldyAbs w => Sys2Proof.Machine.execLdyAbs w s
  | .ldaAbs w => Sys2Proof.Machine.execLdaAbs w s
  | .ldxAbs w => Sys2Proof.Machine.execLdxAbs w s
  | .bbs2 z off => Sys2Proof.Machine.execBbs2 z off s
  | .bcs off => Sys2Proof.Machine.execBcs off s
  | .ldaIndy z => Sys2Proof.Machine.execLdaIndy z s
  | .ldaZpi z => Sys2Proof.Machine.execLdaZpi z s
  | .nopB3 => Sys2Proof.Machine.execNopB3 s
  | .ldyZpx z => Sys2Proof.Machine.execLdyZpx z s
  | .ldaZpx z => Sys2Proof.Machine.execLdaZpx z s
  | .ldxZpy z => Sys2Proof.Machine.execLdxZpy z s
  | .smb3 z => Sys2Proof.Machine.execSmb3 z s
  | .clv => Sys2Proof.Machine.execClv s
  | .ldaAbsy w => Sys2Proof.Machine.execLdaAbsy w s
  | .tsx => Sys2Proof.Machine.execTsx s
  | .nopBB => Sys2Proof.Machine.execNopBB s
  | .ldyAbsx w => Sys2Proof.Machine.execLdyAbsx w s
  | .ldaAbsx w => Sys2Proof.Machine.execLdaAbsx w s
  | .ldxAbsy w => Sys2Proof.Machine.execLdxAbsy w s
  | .bbs3 z off => Sys2Proof.Machine.execBbs3 z off s
  | .cpyImm v => Sys2Proof.Machine.execCpyImm v s
  | .cmpIndx z => Sys2Proof.Machine.execCmpIndx z s
  | .nopC2 v => Sys2Proof.Machine.execNopC2 v s
  | .nopC3 => Sys2Proof.Machine.execNopC3 s
  | .cpyZpg z => Sys2Proof.Machine.execCpyZpg z s
  | .cmpZpg z => Sys2Proof.Machine.execCmpZpg z s
  | .decZpg z => Sys2Proof.Machine.execDecZpg z s
  | .smb4 z => Sys2Proof.Machine.execSmb4 z s
  | .iny => Sys2Proof.Machine.execIny s
  | .cmpImm v => Sys2Proof.Machine.execCmpImm v s
  | .dex => Sys2Proof.Machine.execDex s
  | .wai => Sys2Proof.Machine.execWai s
  | .cpyAbs w => Sys2Proof.Machine.execCpyAbs w s
  | .cmpAbs w => Sys2Proof.Machine.execCmpAbs w s
  | .decAbs w => Sys2Proof.Machine.execDecAbs w s
  | .bbs4 z off => Sys2Proof.Machine.execBbs4 z off s
  | .bne off => Sys2Proof.Machine.execBne off s
  | .cmpIndy z => Sys2Proof.Machine.execCmpIndy z s
  | .cmpZpi z => Sys2Proof.Machine.execCmpZpi z s
  | .nopD3 => Sys2Proof.Machine.execNopD3 s
  | .nopD4 z => Sys2Proof.Machine.execNopD4 z s
  | .cmpZpx z => Sys2Proof.Machine.execCmpZpx z s
  | .decZpx z => Sys2Proof.Machine.execDecZpx z s
  | .smb5 z => Sys2Proof.Machine.execSmb5 z s
  | .cld => Sys2Proof.Machine.execCld s
  | .cmpAbsy w => Sys2Proof.Machine.execCmpAbsy w s
  | .phx => Sys2Proof.Machine.execPhx s
  | .stp => Sys2Proof.Machine.execStp s
  | .nopDC w => Sys2Proof.Machine.execNopDC w s
  | .cmpAbsx w => Sys2Proof.Machine.execCmpAbsx w s
  | .decAbsx w => Sys2Proof.Machine.execDecAbsx w s
  | .bbs5 z off => Sys2Proof.Machine.execBbs5 z off s
  | .cpxImm v => Sys2Proof.Machine.execCpxImm v s
  | .sbcIndx z => Sys2Proof.Machine.execSbcIndx z s
  | .nopE2 v => Sys2Proof.Machine.execNopE2 v s
  | .nopE3 => Sys2Proof.Machine.execNopE3 s
  | .cpxZpg z => Sys2Proof.Machine.execCpxZpg z s
  | .sbcZpg z => Sys2Proof.Machine.execSbcZpg z s
  | .incZpg z => Sys2Proof.Machine.execIncZpg z s
  | .smb6 z => Sys2Proof.Machine.execSmb6 z s
  | .inx => Sys2Proof.Machine.execInx s
  | .sbcImm v => Sys2Proof.Machine.execSbcImm v s
  | .nop => Sys2Proof.Machine.execNop s
  | .nopEB => Sys2Proof.Machine.execNopEB s
  | .cpxAbs w => Sys2Proof.Machine.execCpxAbs w s
  | .sbcAbs w => Sys2Proof.Machine.execSbcAbs w s
  | .incAbs w => Sys2Proof.Machine.execIncAbs w s
  | .bbs6 z off => Sys2Proof.Machine.execBbs6 z off s
  | .beq off => Sys2Proof.Machine.execBeq off s
  | .sbcIndy z => Sys2Proof.Machine.execSbcIndy z s
  | .sbcZpi z => Sys2Proof.Machine.execSbcZpi z s
  | .nopF3 => Sys2Proof.Machine.execNopF3 s
  | .nopF4 z => Sys2Proof.Machine.execNopF4 z s
  | .sbcZpx z => Sys2Proof.Machine.execSbcZpx z s
  | .incZpx z => Sys2Proof.Machine.execIncZpx z s
  | .smb7 z => Sys2Proof.Machine.execSmb7 z s
  | .sed => Sys2Proof.Machine.execSed s
  | .sbcAbsy w => Sys2Proof.Machine.execSbcAbsy w s
  | .plx => Sys2Proof.Machine.execPlx s
  | .nopFB => Sys2Proof.Machine.execNopFB s
  | .nopFC w => Sys2Proof.Machine.execNopFC w s
  | .sbcAbsx w => Sys2Proof.Machine.execSbcAbsx w s
  | .incAbsx w => Sys2Proof.Machine.execIncAbsx w s
  | .bbs7 z off => Sys2Proof.Machine.execBbs7 z off s

end Sys2Proof.Machine
end

