-- ==== Sys2Proof/Machine/Interrupts.lean ====
section
/-! DEFINITION. The controller's decisions (30_encoding.md R87 to R92): what a step does at its top, the interrupt entry
(60_exceptions.md R310 to R316), fetching an instruction's bytes, an illegal opcode (R92, R301), and the state a word is
placed in for the host's check (log entry 11). Step.lean only calls these. -/

namespace Sys2Proof.Machine

/-- The vector of an interrupt kind (R307, R314). -/
def interruptVector : InterruptKind → Addr
  | .nmi => nmiVector
  | .irq => irqVector

/-- `InterruptEntry(kind)`: the exception with B clear in the pushed byte and in P, 7 cycles; NMI clears its latch, IRQ
leaves the line to the host (R313, R314). -/
def State.interruptEntry (s : State) (k : InterruptKind) : State :=
  let s1 := (s.takeException (interruptVector k) s.p.pushedByInterrupt false).addCycles 7
  match k with
  | .nmi => { s1 with nmiPending := false }
  | .irq => s1

/-- No step changes a faulted or stopped core (R87, R288, R300). -/
def State.stuck (s : State) : Bool := s.fault.isSome || s.stopped

/-- Whether an interrupt request of either kind is pending, masked or not: what wakes a waiting core (R312). -/
def State.requested (s : State) : Bool := s.nmiPending || s.irqLine

/-- The core awake (R312). -/
def State.wake (s : State) : State := { s with waiting := false }

/-- What one step does, with the state it does it to. -/
inductive Turn where
  /-- no transition (R87, R300, R288) -/
  | stuck
  /-- one wait cycle (R312) -/
  | waitCycle
  /-- an interrupt entry (R311) -/
  | interrupt (k : InterruptKind) (s : State)
  /-- one instruction (R311) -/
  | instruction (s : State)
  deriving DecidableEq, Repr

/-- The decision at the top of a step, in the order of R87 and R315: stuck, wait, NMI, unmasked IRQ, instruction. -/
def State.turn (s : State) : Turn :=
  if s.stuck then .stuck
  else if s.waiting && !s.requested then .waitCycle
  else if s.nmiPending then .interrupt .nmi s.wake
  else if s.irqLine && !s.p.i then .interrupt .irq s.wake
  else .instruction s.wake

/-- The address the trace callback receives, on the steps that call it: PC at the start of the step (R87, R91). -/
def State.tracePc (s : State) : Option Addr := if s.stuck then none else some s.pc

/-- Fetch and decode the instruction at PC; each address wraps from 0xFFFF to 0x0000 (R88, R89). The operand bytes are
read with the opcode: memory has no side effects (R55), and every operand byte is fetched before the instruction writes
memory (R67; log entry 12). -/
def State.fetch (s : State) : Except DecodeError Instr :=
  decode s.cfg (s.read s.pc) (s.read (s.pc + 1)) (s.read (s.pc + 2))

/-- An opcode with no descriptor (R92, R301): under `strict` the fault is recorded and PC is one past the opcode; under
`permissive` it is a one-byte no-op of `PERMISSIVE_CYCLES` cycles. -/
def State.illegalOpcode (s : State) : State :=
  match s.cfg.illegalPolicy with
  | .strict =>
    { s.setPC (s.pc + 1) with
      fault := some { kind := .invalidOpcode, opcode := s.read s.pc, address := s.pc } }
  | .permissive => (s.setPC (s.pc + 1)).addCycles s.cfg.permissiveCycles

/-- The configuration itself if its table holds the opcode, else the least change of table that holds it: CMOS, then
CMOS with the optional set. -/
def admittingConfig (cfg : Config) (op : Byte) : Config :=
  if (descriptor cfg op).isSome then cfg
  else if (descriptor { cfg with variant := .cmos } op).isSome then { cfg with variant := .cmos }
  else { cfg with variant := .cmos, wdcExtras := true }

/-- The state in which the next step fetches and runs the instruction with these bytes: they stand at PC, the table
holds the opcode, and nothing that the step would do first is pending (log entry 11). -/
def State.placeInstruction (s : State) (op b1 b2 : Byte) : State :=
  let s1 := ((s.write s.pc op).write (s.pc + 1) b1).write (s.pc + 2) b2
  { s1 with
    cfg := admittingConfig s1.cfg op
    waiting := false
    nmiPending := false
    irqLine := false
    stopped := false
    fault := none }

end Sys2Proof.Machine
end

