-- ==== Sys2Proof/Machine/Step.lean ====
section
/-! DEFINITION. One step (30_encoding.md R87) and the host's placing of a word where the step fetches. -/

namespace Sys2Proof.Machine

/-- `step()`: exactly one of a stuck step, a wait cycle, an interrupt entry, an instruction (R87). -/
def step (s : State) : Host.Outcome State Fault Refusal :=
  match s.turn with
  | .stuck => .next s
  | .waitCycle => .next (s.addCycles 1)
  | .interrupt k s1 => .next (s1.interruptEntry k)
  | .instruction s1 =>
    match s1.fetch with
    | .ok i => exec i s1
    | .error _ => .next s1.illegalOpcode

/-- `s` with the instruction whose bits are `w`, `nbits` of them given and the rest 0, stored where `step` fetches its
next instruction: at PC, one byte per address (log entry 11). -/
def State.withFetchWord (s : State) (nbits w : Nat) : State :=
  let bits := w % 2 ^ nbits
  s.placeInstruction (BitVec.ofNat 8 bits) (BitVec.ofNat 8 (bits / 256)) (BitVec.ofNat 8 (bits / 65536))

end Sys2Proof.Machine
end

