-- ==== Sys2Proof/Machine/Hook.lean ====
section
/-! DEFINITION. What the host does between steps (60_exceptions.md R310, R330; 70_reset_and_hazards.md R340 to R345). No
step performs any of these. -/

namespace Sys2Proof.Machine

/-- `request_interrupt(kind)`: NMI is latched, IRQ is a level (R310). -/
def State.requestInterrupt (s : State) : InterruptKind → State
  | .nmi => { s with nmiPending := true }
  | .irq => { s with irqLine := true }

/-- `release_interrupt(IRQ)` (R310). -/
def State.releaseIrq (s : State) : State := { s with irqLine := false }

/-- `reset()` (R340): memory and `irq_line` are not changed; nothing is pushed (R343). -/
def State.doReset (s : State) : State where
  cfg := s.cfg
  pc :=
    match s.cfg.resetPcSource with
    | .vector => s.read16 resetVector
    | .fixed startPc => startPc
  sp := 0xFF
  a := 0x00
  x := 0x00
  y := 0x00
  p := .reset
  cycles := 0
  waiting := false
  nmiPending := false
  irqLine := s.irqLine
  stopped := false
  fault := none
  mem := s.mem

/-- Construction with a configuration and the memory the host supplies: the reset state (R341). -/
def State.construct (cfg : Config) (mem : Memory) : State :=
  State.doReset { State.reset with cfg := cfg, mem := mem }

/-- The host's write of P: stored as `v OR 0x20` (R27, R330). Its writes of PC, SP, A, X, Y and `cycles` are record
updates, its writes of memory are `State.write` (R330, R345). -/
def State.hostWriteP (s : State) (v : Byte) : State := s.setP (.ofByte v)

end Sys2Proof.Machine
end

