-- ==== Sys2Proof/Machine/Run.lean ====
section
/-! DEFINITION. A run and its end, as the host's driver loop defines them (70_reset_and_hazards.md R346, 60_exceptions.md
R300). -/

namespace Sys2Proof.Machine

/-- Whether a run ends at `s`, `taken` steps after its launch state: the host's completion predicate holds of the two (R346:
"PC = a given address", or "N steps taken"), and `s` is neither faulted nor stopped, since such a state is stuck and no end,
whatever the predicate says of it (R300, R346; 92_eei_decisions.md D29). -/
def State.isEnd (done : Nat → State → Bool) (taken : Nat) (s : State) : Bool := !s.stuck && done taken s

/-- The rest of a run that has taken `taken` steps and is at `s`: its first state, between steps, that is an end, within
`fuel` more steps; `none` if there is none (R346). -/
def State.runFrom (done : Nat → State → Bool) (taken : Nat) : Nat → State → Option State
  | 0, s => if s.isEnd done taken then some s else none
  | fuel + 1, s =>
    if s.isEnd done taken then some s
    else
      match step s with
      | .next t => State.runFrom done (taken + 1) fuel t
      | _ => none

/-- The end of the run from the launch state `s`, within `fuel` steps (R346). -/
def State.runUntil (done : Nat → State → Bool) (fuel : Nat) (s : State) : Option State := s.runFrom done 0 fuel

end Sys2Proof.Machine
end

