-- ==== Sys2Proof/Safety.lean ====
section
/-! DEFINITION. The terms the claims use: the invariant of the machine, what a store leaves unchanged, how a statement
names an instruction's row of the opcode table, and the list of operand forms of every instruction that has more than
one. -/

namespace Sys2Proof.Machine

/-- What holds of every state a run from reset or construction reaches: memory is in its canonical form (R50); a core on
NMOS never waits (R32); only a CMOS core with the optional set is ever stopped (R20, R288); and a recorded fault is an
InvalidOpcode of the strict policy, for an opcode the table does not hold, with PC one past its address (R300, R301). -/
def Inv (s : State) : Prop :=
  s.mem.wf ∧
  (s.cfg.variant = .nmos → s.waiting = false) ∧
  (s.stopped = true → s.cfg.variant = .cmos ∧ s.cfg.wdcExtras = true) ∧
  (∀ f, s.fault = some f →
    s.cfg.illegalPolicy = .strict ∧ f.kind = .invalidOpcode ∧ descriptor s.cfg f.opcode = none ∧
      s.pc = f.address + 1)

/-- `t`'s memory is `s`'s with the byte `v` at `addr` and every other byte unchanged. -/
def OnlyStored (s t : State) (addr : Addr) (v : Byte) : Prop :=
  t.read addr = v ∧ ∀ a, a ≠ addr → t.read a = s.read a

/-- The instruction `i` is the row of the opcode table with this mnemonic, opcode byte, mode and availability (R80, R84 to
R86). -/
def EncodedAs (mn : String) (op : Byte) (m : Mode) (av : Availability) (i : Instr) : Prop :=
  i.opcode = op ∧ ∃ d, tableEntry op = some d ∧ d.mnemonic = mn ∧ d.mode = m ∧ d.avail = av

/-- The mnemonic of an instruction's row of the opcode table (R83). -/
def mnemonicOf (i : Instr) : String :=
  match tableEntry i.opcode with
  | some d => d.mnemonic
  | none => ""

/-- The mode of an instruction's row of the opcode table (R83). -/
def modeOf (i : Instr) : Mode :=
  match tableEntry i.opcode with
  | some d => d.mode
  | none => .imp

/-- The step neither is stuck nor waits on, nor takes an interrupt: it runs the instruction at PC (R87, R311, R312). -/
def RunsAnInstruction (s : State) : Prop :=
  s.fault = none ∧ s.stopped = false ∧ (s.waiting = true → s.nmiPending = true ∨ s.irqLine = true) ∧
    s.nmiPending = false ∧ (s.irqLine = false ∨ s.p.i = true)

/-- One operand form of an instruction: its opcode byte, which tables hold it, the instruction, and its operand. -/
structure Form where
  op : Byte
  avail : Availability
  instr : Instr
  operand : Operand
  deriving DecidableEq, Repr

/-- The form is that row of the opcode table. -/
def Form.encoded (f : Form) (mn : String) : Prop := EncodedAs mn f.op f.operand.mode f.avail f.instr

/-- PC past the form's bytes (R80, R88). -/
def Form.nextPC (f : Form) (s : State) : Addr := s.pc + BitVec.ofNat 16 f.operand.mode.length

/-- The cycle counter after the form: the base count and the page-cross penalty (R350). -/
def Form.cyclesAfter (f : Form) (s : State) : Nat := s.cycles + baseCycles s.cfg f.op + f.operand.penalty f.op s

/-- The LDA forms (R140). -/
def ldaForms (b : Byte) (w : Addr) : List Form := [
  ⟨0xA1, .both, .ldaIndx b, .indx b⟩,
  ⟨0xA5, .both, .ldaZpg b, .zpg b⟩,
  ⟨0xA9, .both, .ldaImm b, .imm b⟩,
  ⟨0xAD, .both, .ldaAbs w, .abs w⟩,
  ⟨0xB1, .both, .ldaIndy b, .indy b⟩,
  ⟨0xB2, .cmos, .ldaZpi b, .zpi b⟩,
  ⟨0xB5, .both, .ldaZpx b, .zpx b⟩,
  ⟨0xB9, .both, .ldaAbsy w, .absy w⟩,
  ⟨0xBD, .both, .ldaAbsx w, .absx w⟩]

/-- The LDX forms (R141). -/
def ldxForms (b : Byte) (w : Addr) : List Form := [
  ⟨0xA2, .both, .ldxImm b, .imm b⟩,
  ⟨0xA6, .both, .ldxZpg b, .zpg b⟩,
  ⟨0xAE, .both, .ldxAbs w, .abs w⟩,
  ⟨0xB6, .both, .ldxZpy b, .zpy b⟩,
  ⟨0xBE, .both, .ldxAbsy w, .absy w⟩]

/-- The LDY forms (R142). -/
def ldyForms (b : Byte) (w : Addr) : List Form := [
  ⟨0xA0, .both, .ldyImm b, .imm b⟩,
  ⟨0xA4, .both, .ldyZpg b, .zpg b⟩,
  ⟨0xAC, .both, .ldyAbs w, .abs w⟩,
  ⟨0xB4, .both, .ldyZpx b, .zpx b⟩,
  ⟨0xBC, .both, .ldyAbsx w, .absx w⟩]

/-- The STA forms (R143). -/
def staForms (b : Byte) (w : Addr) : List Form := [
  ⟨0x81, .both, .staIndx b, .indx b⟩,
  ⟨0x85, .both, .staZpg b, .zpg b⟩,
  ⟨0x8D, .both, .staAbs w, .abs w⟩,
  ⟨0x91, .both, .staIndy b, .indy b⟩,
  ⟨0x92, .cmos, .staZpi b, .zpi b⟩,
  ⟨0x95, .both, .staZpx b, .zpx b⟩,
  ⟨0x99, .both, .staAbsy w, .absy w⟩,
  ⟨0x9D, .both, .staAbsx w, .absx w⟩]

/-- The STX forms (R144). -/
def stxForms (b : Byte) (w : Addr) : List Form := [
  ⟨0x86, .both, .stxZpg b, .zpg b⟩,
  ⟨0x8E, .both, .stxAbs w, .abs w⟩,
  ⟨0x96, .both, .stxZpy b, .zpy b⟩]

/-- The STY forms (R145). -/
def styForms (b : Byte) (w : Addr) : List Form := [
  ⟨0x84, .both, .styZpg b, .zpg b⟩,
  ⟨0x8C, .both, .styAbs w, .abs w⟩,
  ⟨0x94, .both, .styZpx b, .zpx b⟩]

/-- The STZ forms (R146). -/
def stzForms (b : Byte) (w : Addr) : List Form := [
  ⟨0x64, .cmos, .stzZpg b, .zpg b⟩,
  ⟨0x74, .cmos, .stzZpx b, .zpx b⟩,
  ⟨0x9C, .cmos, .stzAbs w, .abs w⟩,
  ⟨0x9E, .cmos, .stzAbsx w, .absx w⟩]

/-- The ADC forms (R166). -/
def adcForms (b : Byte) (w : Addr) : List Form := [
  ⟨0x61, .both, .adcIndx b, .indx b⟩,
  ⟨0x65, .both, .adcZpg b, .zpg b⟩,
  ⟨0x69, .both, .adcImm b, .imm b⟩,
  ⟨0x6D, .both, .adcAbs w, .abs w⟩,
  ⟨0x71, .both, .adcIndy b, .indy b⟩,
  ⟨0x72, .cmos, .adcZpi b, .zpi b⟩,
  ⟨0x75, .both, .adcZpx b, .zpx b⟩,
  ⟨0x79, .both, .adcAbsy w, .absy w⟩,
  ⟨0x7D, .both, .adcAbsx w, .absx w⟩]

/-- The SBC forms (R167). -/
def sbcForms (b : Byte) (w : Addr) : List Form := [
  ⟨0xE1, .both, .sbcIndx b, .indx b⟩,
  ⟨0xE5, .both, .sbcZpg b, .zpg b⟩,
  ⟨0xE9, .both, .sbcImm b, .imm b⟩,
  ⟨0xED, .both, .sbcAbs w, .abs w⟩,
  ⟨0xF1, .both, .sbcIndy b, .indy b⟩,
  ⟨0xF2, .cmos, .sbcZpi b, .zpi b⟩,
  ⟨0xF5, .both, .sbcZpx b, .zpx b⟩,
  ⟨0xF9, .both, .sbcAbsy w, .absy w⟩,
  ⟨0xFD, .both, .sbcAbsx w, .absx w⟩]

/-- The CMP forms (R169). -/
def cmpForms (b : Byte) (w : Addr) : List Form := [
  ⟨0xC1, .both, .cmpIndx b, .indx b⟩,
  ⟨0xC5, .both, .cmpZpg b, .zpg b⟩,
  ⟨0xC9, .both, .cmpImm b, .imm b⟩,
  ⟨0xCD, .both, .cmpAbs w, .abs w⟩,
  ⟨0xD1, .both, .cmpIndy b, .indy b⟩,
  ⟨0xD2, .cmos, .cmpZpi b, .zpi b⟩,
  ⟨0xD5, .both, .cmpZpx b, .zpx b⟩,
  ⟨0xD9, .both, .cmpAbsy w, .absy w⟩,
  ⟨0xDD, .both, .cmpAbsx w, .absx w⟩]

/-- The CPX forms (R170). -/
def cpxForms (b : Byte) (w : Addr) : List Form := [
  ⟨0xE0, .both, .cpxImm b, .imm b⟩,
  ⟨0xE4, .both, .cpxZpg b, .zpg b⟩,
  ⟨0xEC, .both, .cpxAbs w, .abs w⟩]

/-- The CPY forms (R171). -/
def cpyForms (b : Byte) (w : Addr) : List Form := [
  ⟨0xC0, .both, .cpyImm b, .imm b⟩,
  ⟨0xC4, .both, .cpyZpg b, .zpg b⟩,
  ⟨0xCC, .both, .cpyAbs w, .abs w⟩]

/-- The AND forms (R190). -/
def andForms (b : Byte) (w : Addr) : List Form := [
  ⟨0x21, .both, .andIndx b, .indx b⟩,
  ⟨0x25, .both, .andZpg b, .zpg b⟩,
  ⟨0x29, .both, .andImm b, .imm b⟩,
  ⟨0x2D, .both, .andAbs w, .abs w⟩,
  ⟨0x31, .both, .andIndy b, .indy b⟩,
  ⟨0x32, .cmos, .andZpi b, .zpi b⟩,
  ⟨0x35, .both, .andZpx b, .zpx b⟩,
  ⟨0x39, .both, .andAbsy w, .absy w⟩,
  ⟨0x3D, .both, .andAbsx w, .absx w⟩]

/-- The ORA forms (R191). -/
def oraForms (b : Byte) (w : Addr) : List Form := [
  ⟨0x01, .both, .oraIndx b, .indx b⟩,
  ⟨0x05, .both, .oraZpg b, .zpg b⟩,
  ⟨0x09, .both, .oraImm b, .imm b⟩,
  ⟨0x0D, .both, .oraAbs w, .abs w⟩,
  ⟨0x11, .both, .oraIndy b, .indy b⟩,
  ⟨0x12, .cmos, .oraZpi b, .zpi b⟩,
  ⟨0x15, .both, .oraZpx b, .zpx b⟩,
  ⟨0x19, .both, .oraAbsy w, .absy w⟩,
  ⟨0x1D, .both, .oraAbsx w, .absx w⟩]

/-- The EOR forms (R192). -/
def eorForms (b : Byte) (w : Addr) : List Form := [
  ⟨0x41, .both, .eorIndx b, .indx b⟩,
  ⟨0x45, .both, .eorZpg b, .zpg b⟩,
  ⟨0x49, .both, .eorImm b, .imm b⟩,
  ⟨0x4D, .both, .eorAbs w, .abs w⟩,
  ⟨0x51, .both, .eorIndy b, .indy b⟩,
  ⟨0x52, .cmos, .eorZpi b, .zpi b⟩,
  ⟨0x55, .both, .eorZpx b, .zpx b⟩,
  ⟨0x59, .both, .eorAbsy w, .absy w⟩,
  ⟨0x5D, .both, .eorAbsx w, .absx w⟩]

/-- The INC forms (R172). -/
def incMemoryForms (b : Byte) (w : Addr) : List Form := [
  ⟨0xE6, .both, .incZpg b, .zpg b⟩,
  ⟨0xEE, .both, .incAbs w, .abs w⟩,
  ⟨0xF6, .both, .incZpx b, .zpx b⟩,
  ⟨0xFE, .both, .incAbsx w, .absx w⟩]

/-- The DEC forms (R173). -/
def decMemoryForms (b : Byte) (w : Addr) : List Form := [
  ⟨0xC6, .both, .decZpg b, .zpg b⟩,
  ⟨0xCE, .both, .decAbs w, .abs w⟩,
  ⟨0xD6, .both, .decZpx b, .zpx b⟩,
  ⟨0xDE, .both, .decAbsx w, .absx w⟩]

/-- The BIT forms (R193, R287). -/
def bitMemoryForms (b : Byte) (w : Addr) : List Form := [
  ⟨0x24, .both, .bitZpg b, .zpg b⟩,
  ⟨0x2C, .both, .bitAbs w, .abs w⟩,
  ⟨0x34, .wdc, .bitZpx b, .zpx b⟩,
  ⟨0x3C, .wdc, .bitAbsx w, .absx w⟩]

/-- The ASL forms (R194). -/
def aslMemoryForms (b : Byte) (w : Addr) : List Form := [
  ⟨0x06, .both, .aslZpg b, .zpg b⟩,
  ⟨0x0E, .both, .aslAbs w, .abs w⟩,
  ⟨0x16, .both, .aslZpx b, .zpx b⟩,
  ⟨0x1E, .both, .aslAbsx w, .absx w⟩]

/-- The LSR forms (R195). -/
def lsrMemoryForms (b : Byte) (w : Addr) : List Form := [
  ⟨0x46, .both, .lsrZpg b, .zpg b⟩,
  ⟨0x4E, .both, .lsrAbs w, .abs w⟩,
  ⟨0x56, .both, .lsrZpx b, .zpx b⟩,
  ⟨0x5E, .both, .lsrAbsx w, .absx w⟩]

/-- The ROL forms (R196). -/
def rolMemoryForms (b : Byte) (w : Addr) : List Form := [
  ⟨0x26, .both, .rolZpg b, .zpg b⟩,
  ⟨0x2E, .both, .rolAbs w, .abs w⟩,
  ⟨0x36, .both, .rolZpx b, .zpx b⟩,
  ⟨0x3E, .both, .rolAbsx w, .absx w⟩]

/-- The ROR forms (R197). -/
def rorMemoryForms (b : Byte) (w : Addr) : List Form := [
  ⟨0x66, .both, .rorZpg b, .zpg b⟩,
  ⟨0x6E, .both, .rorAbs w, .abs w⟩,
  ⟨0x76, .both, .rorZpx b, .zpx b⟩,
  ⟨0x7E, .both, .rorAbsx w, .absx w⟩]

/-- The TSB forms (R198). -/
def tsbForms (b : Byte) (w : Addr) : List Form := [
  ⟨0x04, .cmos, .tsbZpg b, .zpg b⟩,
  ⟨0x0C, .cmos, .tsbAbs w, .abs w⟩]

/-- The TRB forms (R199). -/
def trbForms (b : Byte) (w : Addr) : List Form := [
  ⟨0x14, .cmos, .trbZpg b, .zpg b⟩,
  ⟨0x1C, .cmos, .trbAbs w, .abs w⟩]

/-- An instruction on one bit of a zero-page byte: its mnemonic, bit, opcode byte and instruction. -/
structure BitRow where
  mnemonic : String
  bit : Nat
  op : Byte
  instr : Instr
  deriving DecidableEq, Repr

/-- The RMBn instructions with their bit and opcode (R200 to R207). -/
def rmbRows (z : Byte) : List BitRow := [
  ⟨"RMB0", 0, 0x07, .rmb0 z⟩,
  ⟨"RMB1", 1, 0x17, .rmb1 z⟩,
  ⟨"RMB2", 2, 0x27, .rmb2 z⟩,
  ⟨"RMB3", 3, 0x37, .rmb3 z⟩,
  ⟨"RMB4", 4, 0x47, .rmb4 z⟩,
  ⟨"RMB5", 5, 0x57, .rmb5 z⟩,
  ⟨"RMB6", 6, 0x67, .rmb6 z⟩,
  ⟨"RMB7", 7, 0x77, .rmb7 z⟩]

/-- The SMBn instructions with their bit and opcode (R208 to R215). -/
def smbRows (z : Byte) : List BitRow := [
  ⟨"SMB0", 0, 0x87, .smb0 z⟩,
  ⟨"SMB1", 1, 0x97, .smb1 z⟩,
  ⟨"SMB2", 2, 0xA7, .smb2 z⟩,
  ⟨"SMB3", 3, 0xB7, .smb3 z⟩,
  ⟨"SMB4", 4, 0xC7, .smb4 z⟩,
  ⟨"SMB5", 5, 0xD7, .smb5 z⟩,
  ⟨"SMB6", 6, 0xE7, .smb6 z⟩,
  ⟨"SMB7", 7, 0xF7, .smb7 z⟩]

/-- The BBRn instructions with their bit and opcode (R271 to R278). -/
def bbrRows (z off : Byte) : List BitRow := [
  ⟨"BBR0", 0, 0x0F, .bbr0 z off⟩,
  ⟨"BBR1", 1, 0x1F, .bbr1 z off⟩,
  ⟨"BBR2", 2, 0x2F, .bbr2 z off⟩,
  ⟨"BBR3", 3, 0x3F, .bbr3 z off⟩,
  ⟨"BBR4", 4, 0x4F, .bbr4 z off⟩,
  ⟨"BBR5", 5, 0x5F, .bbr5 z off⟩,
  ⟨"BBR6", 6, 0x6F, .bbr6 z off⟩,
  ⟨"BBR7", 7, 0x7F, .bbr7 z off⟩]

/-- The BBSn instructions with their bit and opcode (R279 to R286). -/
def bbsRows (z off : Byte) : List BitRow := [
  ⟨"BBS0", 0, 0x8F, .bbs0 z off⟩,
  ⟨"BBS1", 1, 0x9F, .bbs1 z off⟩,
  ⟨"BBS2", 2, 0xAF, .bbs2 z off⟩,
  ⟨"BBS3", 3, 0xBF, .bbs3 z off⟩,
  ⟨"BBS4", 4, 0xCF, .bbs4 z off⟩,
  ⟨"BBS5", 5, 0xDF, .bbs5 z off⟩,
  ⟨"BBS6", 6, 0xEF, .bbs6 z off⟩,
  ⟨"BBS7", 7, 0xFF, .bbs7 z off⟩]

/-- A row of R289's table: opcode byte, mode, length, base cycles; and the instruction. -/
structure NopRow where
  op : Byte
  mode : Mode
  len : Nat
  cycles : Nat
  instr : Instr
  deriving DecidableEq, Repr

/-- The optional NOPs: the table of R289. -/
def optionalNops (b : Byte) (w : Addr) : List NopRow := [
  ⟨0x02, .imm, 2, 2, .nop02 b⟩, ⟨0x03, .imp, 1, 1, .nop03⟩, ⟨0x0B, .imp, 1, 1, .nop0B⟩,
  ⟨0x13, .imp, 1, 1, .nop13⟩, ⟨0x1B, .imp, 1, 1, .nop1B⟩, ⟨0x22, .imm, 2, 2, .nop22 b⟩,
  ⟨0x23, .imp, 1, 1, .nop23⟩, ⟨0x2B, .imp, 1, 1, .nop2B⟩, ⟨0x33, .imp, 1, 1, .nop33⟩,
  ⟨0x3B, .imp, 1, 1, .nop3B⟩, ⟨0x42, .imm, 2, 2, .nop42 b⟩, ⟨0x43, .imp, 1, 1, .nop43⟩,
  ⟨0x44, .zpg, 2, 3, .nop44 b⟩, ⟨0x4B, .imp, 1, 1, .nop4B⟩, ⟨0x53, .imp, 1, 1, .nop53⟩,
  ⟨0x54, .zpx, 2, 4, .nop54 b⟩, ⟨0x5B, .imp, 1, 1, .nop5B⟩, ⟨0x5C, .abs, 3, 8, .nop5C w⟩,
  ⟨0x62, .imm, 2, 2, .nop62 b⟩, ⟨0x63, .imp, 1, 1, .nop63⟩, ⟨0x6B, .imp, 1, 1, .nop6B⟩,
  ⟨0x73, .imp, 1, 1, .nop73⟩, ⟨0x7B, .imp, 1, 1, .nop7B⟩, ⟨0x82, .imm, 2, 2, .nop82 b⟩,
  ⟨0x83, .imp, 1, 1, .nop83⟩, ⟨0x8B, .imp, 1, 1, .nop8B⟩, ⟨0x93, .imp, 1, 1, .nop93⟩,
  ⟨0x9B, .imp, 1, 1, .nop9B⟩, ⟨0xA3, .imp, 1, 1, .nopA3⟩, ⟨0xAB, .imp, 1, 1, .nopAB⟩,
  ⟨0xB3, .imp, 1, 1, .nopB3⟩, ⟨0xBB, .imp, 1, 1, .nopBB⟩, ⟨0xC2, .imm, 2, 2, .nopC2 b⟩,
  ⟨0xC3, .imp, 1, 1, .nopC3⟩, ⟨0xD3, .imp, 1, 1, .nopD3⟩, ⟨0xD4, .zpx, 2, 4, .nopD4 b⟩,
  ⟨0xDC, .abs, 3, 4, .nopDC w⟩, ⟨0xE2, .imm, 2, 2, .nopE2 b⟩, ⟨0xE3, .imp, 1, 1, .nopE3⟩,
  ⟨0xEB, .imp, 1, 1, .nopEB⟩, ⟨0xF3, .imp, 1, 1, .nopF3⟩, ⟨0xF4, .zpx, 2, 4, .nopF4 b⟩,
  ⟨0xFB, .imp, 1, 1, .nopFB⟩, ⟨0xFC, .abs, 3, 4, .nopFC w⟩]

end Sys2Proof.Machine
end

