-- ==== Sys2Proof/Certificates/Slice0/Obligations.lean ====
section
/-! DEFINITION. The statements for the provers, each from numbered rules of spec/ (named in its docstring). A statement
about an instruction gives the whole next state: every field that is not named keeps its value. -/

open Sys2Proof Sys2Proof.Machine

/-! ### Encoding (30_encoding.md) -/

/-- R80 to R86, R89: decoding the bytes of a well-formed instruction, with any bytes after them, gives that instruction
and those bytes, in every configuration. -/
def Obligations.DecodeOfEncodeIsTheInstruction : Prop :=
  ∀ (cfg : Config) (i : Instr) (rest : List Byte),
    i.wellFormed cfg = true → decodeBytes cfg (encode i ++ rest) = .ok (i, rest)

/-- R80 to R86, R93: bytes that decode are the encoding of the instruction they decode to, which is well formed. -/
def Obligations.EncodeOfDecodeIsTheBytes : Prop :=
  ∀ (cfg : Config) (bs : List Byte) (i : Instr) (rest : List Byte),
    decodeBytes cfg bs = .ok (i, rest) → i.wellFormed cfg = true ∧ encode i ++ rest = bs

/-- R81, R84 to R86: words written out from the opcode grids decode to the instructions they stand for. -/
def Obligations.SampleWordsDecode : Prop :=
  decodeBytes .allOpcodes [0xBD, 0xF0, 0x10] = .ok (.ldaAbsx 0x10F0, []) ∧
  decodeBytes .allOpcodes [0x96, 0xFF] = .ok (.stxZpy 0xFF, []) ∧
  decodeBytes .allOpcodes [0x71, 0x40] = .ok (.adcIndy 0x40, []) ∧
  decodeBytes .allOpcodes [0x1C, 0x00, 0x03] = .ok (.trbAbs 0x0300, []) ∧
  decodeBytes .allOpcodes [0xD0, 0xFE] = .ok (.bne 0xFE, []) ∧
  decodeBytes .allOpcodes [0x7C, 0x00, 0x30] = .ok (.jmpIax 0x3000, []) ∧
  decodeBytes .allOpcodes [0x28] = .ok (.plp, []) ∧
  decodeBytes .allOpcodes [0xCB] = .ok (.wai, []) ∧
  decodeBytes .allOpcodes [0x9F, 0x10, 0xFB] = .ok (.bbs1 0x10 0xFB, [])

/-- R84 to R86, R7: how many opcode bytes each table defines, and that the CMOS table is the NMOS table and more: what
NMOS decodes, CMOS decodes to the same instruction. -/
def Obligations.TablesNestAndCount : Prop :=
  (∀ cfg : Config,
    ((List.range 256).filter fun n => (descriptor cfg (BitVec.ofNat 8 n)).isSome).length =
      match cfg.variant with
      | .nmos => 151
      | .cmos => if cfg.wdcExtras then 256 else 193) ∧
  (∀ (cfg : Config) (op b1 b2 : Byte) (i : Instr),
    cfg.variant = .nmos → decode cfg op b1 b2 = .ok i → decode { cfg with variant := .cmos } op b1 b2 = .ok i)

/-! ### The controller (30_encoding.md R87 to R92; 60_exceptions.md) -/

/-- R87, R88, R89, R311: when a step runs an instruction and the bytes at PC decode, the step is that instruction's
meaning, with a waiting core awake. -/
def Obligations.StepRunsTheDecodedInstruction : Prop :=
  ∀ (s : State) (i : Instr),
    RunsAnInstruction s → decode s.cfg (s.read s.pc) (s.read (s.pc + 1)) (s.read (s.pc + 2)) = .ok i →
      step s = exec i { s with waiting := false }

/-- R92, R301: an opcode with no descriptor, under each policy; and the strict fault is terminal (R300). That the raise,
and the step after it, answer next states is the model's reading of "makes no transition" (log entry 4, DEDUCED). -/
def Obligations.IllegalOpcodeFaultsOrSkips : Prop :=
  ∀ s : State, RunsAnInstruction s → descriptor s.cfg (s.read s.pc) = none →
    (s.cfg.illegalPolicy = .strict → ∃ t, step s = .next t ∧ step t = .next t ∧
      t = { s with
            waiting := false
            pc := s.pc + 1
            fault := some { kind := .invalidOpcode, opcode := s.read s.pc, address := s.pc } }) ∧
    (s.cfg.illegalPolicy = .permissive →
      step s = .next { s with
                        waiting := false
                        pc := s.pc + 1
                        cycles := s.cycles + s.cfg.permissiveCycles })

/-- R300, R288: a step of a faulted or stopped core changes nothing, and reset clears both conditions. That such a step
answers the same state as a next state is the model's reading of "makes no transition" (log entry 4, DEDUCED). -/
def Obligations.StuckCoreStaysUntilReset : Prop :=
  ∀ s : State, s.fault ≠ none ∨ s.stopped = true →
    step s = .next s ∧ s.doReset.fault = none ∧ s.doReset.stopped = false

/-- R312: a waiting core counts one cycle a step while nothing is requested; any request, masked or not, wakes it and
the same step goes on. -/
def Obligations.WaitingCoreWakesOnRequest : Prop :=
  ∀ s : State, s.fault = none → s.stopped = false → s.waiting = true →
    (s.nmiPending = false → s.irqLine = false → step s = .next { s with cycles := s.cycles + 1 }) ∧
    (s.nmiPending = true ∨ s.irqLine = true → step s = step { s with waiting := false })

/-- R313, R311, R315: a pending NMI, or else an unmasked IRQ, is taken: the three stack bytes, P, the vector, 7 cycles,
and nothing else. -/
def Obligations.InterruptEntrySavesAndVectors : Prop :=
  ∀ s : State, s.fault = none → s.stopped = false →
    s.nmiPending = true ∨ (s.irqLine = true ∧ s.p.i = false) →
    ∃ t, step s = .next t ∧
      t.read (stackCell s.sp) = hiByte s.pc ∧
      t.read (stackCell (s.sp - 1)) = loByte s.pc ∧
      t.read (stackCell (s.sp - 2)) = (s.p.toByte &&& 0xEF) ||| 0x20 ∧
      (∀ a, a ≠ stackCell s.sp → a ≠ stackCell (s.sp - 1) → a ≠ stackCell (s.sp - 2) → t.read a = s.read a) ∧
      t = { s with
            mem := t.mem
            waiting := false
            nmiPending := false
            sp := s.sp - 3
            p := { s.p with i := true, b := false, d := if s.cfg.variant = .cmos then false else s.p.d }
            pc := t.read16 (if s.nmiPending = true then 0xFFFA else 0xFFFE)
            cycles := s.cycles + 7 }

/-- R316, R320, R260, R261 (E10): RTI from the state an interrupt entry leaves resumes at the saved PC, and RTI from the
state BRK leaves two past the BRK; both with SP, A, X, Y and every flag as before but B, which is forced to 1. -/
def Obligations.RtiUndoesEveryEntry : Prop :=
  ∀ s : State,
    let resumes := fun (t : State) (pc : Addr) =>
      ∃ u, exec .rti t = .next u ∧ u.pc = pc ∧ u.sp = s.sp ∧ u.p = { s.p with b := true } ∧
        u.a = s.a ∧ u.x = s.x ∧ u.y = s.y
    (∀ k, resumes (s.interruptEntry k) s.pc) ∧ (∃ t, exec .brk s = .next t ∧ resumes t (s.pc + 2))

/-- R97, R303, R305: every step, from every state, answers a next state: no step faults and no step refuses. -/
def Obligations.EveryStepAnswersNext : Prop :=
  ∀ s : State, ∃ t, step s = .next t

/-- R32, R288, R300, R301: the invariant `Inv` is kept by every step. Its memory clause, addresses rising and no byte
equal to what an unlisted cell reads as, is the model's own form for the 65,536 bytes of R50 (log entry 3, DESIGN CHOICE),
and that a fault is a field of a next state is log entry 4 (DEDUCED). -/
def Obligations.StepKeepsInvariant : Prop :=
  ∀ s t : State, Inv s → step s = .next t → Inv t

/-- R35: the invariant holds at `State.reset`, and after construction in every configuration on every memory in
canonical form (R341). The canonical form, here and in `Inv`, and the empty memory of `State.reset` are the model's choices
(log entry 3, DESIGN CHOICE), and so is the configuration of `State.reset` (log entries 1 and 2, DESIGN CHOICE). -/
def Obligations.ResetMeetsInvariant : Prop :=
  Inv State.reset ∧ ∀ (cfg : Config) (m : Memory), m.wf → Inv (State.construct cfg m)

/-- R2, R97, R306, R310, R320: no instruction raises a fault or touches a request, only WAI sets `waiting`, only STP sets
`stopped`; and no step changes the configuration or `irq_line` or makes an NMI request. -/
def Obligations.ControlStateChangesOnlyByItsWriters : Prop :=
  (∀ (i : Instr) (s t : State), exec i s = .next t →
    t.cfg = s.cfg ∧ t.fault = s.fault ∧ t.nmiPending = s.nmiPending ∧ t.irqLine = s.irqLine ∧
    (mnemonicOf i ≠ "WAI" → t.waiting = s.waiting) ∧ (mnemonicOf i ≠ "STP" → t.stopped = s.stopped)) ∧
  (∀ s t : State, step s = .next t →
    t.cfg = s.cfg ∧ t.irqLine = s.irqLine ∧ (t.nmiPending = true → s.nmiPending = true))

/-- R31, R90, R350: an instruction adds its base count and at most two extra cycles, and no step lowers the counter. -/
def Obligations.CyclesGrowByBaseAndExtra : Prop :=
  (∀ (i : Instr) (s t : State), exec i s = .next t →
    ∃ extra, extra ≤ 2 ∧ t.cycles = s.cycles + baseCycles s.cfg i.opcode + extra) ∧
  (∀ s t : State, step s = .next t → s.cycles ≤ t.cycles)

/-- R31, R350: no result depends on the cycle counter: from a state that differs in it alone, a step gives the same state
but for the counter. -/
def Obligations.NothingDependsOnCycles : Prop :=
  ∀ (s t : State) (n : Nat), step s = .next t →
    ∃ n', step { s with cycles := n } = .next { t with cycles := n' }

/-- R28, R30: no result depends on P.B: from a state that differs in it alone, a step gives the same state but for
P.B. -/
def Obligations.NothingDependsOnBreakFlag : Prop :=
  ∀ (s t : State) (b : Bool), step s = .next t →
    ∃ b', step { s with p := { s.p with b := b } } = .next { t with p := { t.p with b := b' } }

/-! ### Whole-machine rules: who writes what (10_state.md R24, R29; 20_memory.md R54; 30_encoding.md R88) -/

/-- R29: an instruction not listed against a flag leaves it unchanged. -/
def Obligations.FlagsChangeOnlyByTheirWriters : Prop :=
  ∀ (i : Instr) (s t : State), exec i s = .next t →
    (mnemonicOf i ∉ ["ADC", "SBC", "AND", "ORA", "EOR", "LDA", "LDX", "LDY", "TAX", "TAY", "TXA", "TYA", "TSX", "PLA",
        "PLX", "PLY", "INC", "DEC", "INX", "INY", "DEX", "DEY", "CMP", "CPX", "CPY", "ASL", "LSR", "ROL", "ROR",
        "BIT", "PLP", "RTI"] → t.p.n = s.p.n) ∧
    (mnemonicOf i ∉ ["ADC", "SBC", "BIT", "CLV", "PLP", "RTI"] → t.p.v = s.p.v) ∧
    (mnemonicOf i = "BIT" → modeOf i = .imm → t.p.n = s.p.n ∧ t.p.v = s.p.v) ∧
    (mnemonicOf i ∉ ["BRK", "PLP", "RTI"] → t.p.b = s.p.b) ∧
    (mnemonicOf i ∉ ["CLD", "SED", "PLP", "RTI", "BRK"] → t.p.d = s.p.d) ∧
    (mnemonicOf i ∉ ["CLI", "SEI", "BRK", "PLP", "RTI"] → t.p.i = s.p.i) ∧
    (mnemonicOf i ∉ ["ADC", "SBC", "AND", "ORA", "EOR", "LDA", "LDX", "LDY", "TAX", "TAY", "TXA", "TYA", "TSX", "PLA",
        "PLX", "PLY", "INC", "DEC", "INX", "INY", "DEX", "DEY", "CMP", "CPX", "CPY", "ASL", "LSR", "ROL", "ROR",
        "BIT", "TSB", "TRB", "PLP", "RTI"] → t.p.z = s.p.z) ∧
    (mnemonicOf i ∉ ["ADC", "SBC", "CMP", "CPX", "CPY", "ASL", "LSR", "ROL", "ROR", "CLC", "SEC", "PLP",
        "RTI"] → t.p.c = s.p.c)

/-- R24: an instruction not listed against a register leaves it unchanged. -/
def Obligations.RegistersChangeOnlyByTheirWriters : Prop :=
  ∀ (i : Instr) (s t : State), exec i s = .next t →
    (mnemonicOf i ∉ ["LDA", "PLA", "TXA", "TYA", "ADC", "SBC", "AND", "ORA", "EOR"] → modeOf i ≠ .acc → t.a = s.a) ∧
    (mnemonicOf i ∉ ["LDX", "TAX", "TSX", "INX", "DEX", "PLX"] → t.x = s.x) ∧
    (mnemonicOf i ∉ ["LDY", "TAY", "INY", "DEY", "PLY"] → t.y = s.y) ∧
    (mnemonicOf i ∉ ["TXS", "PHA", "PHP", "PHX", "PHY", "PLA", "PLP", "PLX", "PLY", "JSR", "RTS", "BRK", "RTI"] →
      t.sp = s.sp)

/-- R54, R110: only stores, read-modify-writes on memory and pushes write memory. -/
def Obligations.MemoryChangesOnlyByItsWriters : Prop :=
  ∀ (i : Instr) (s t : State), exec i s = .next t →
    mnemonicOf i ∉ ["STA", "STX", "STY", "STZ", "TSB", "TRB", "PHA", "PHP", "PHX", "PHY", "JSR", "BRK",
      "RMB0", "RMB1", "RMB2", "RMB3", "RMB4", "RMB5", "RMB6", "RMB7",
      "SMB0", "SMB1", "SMB2", "SMB3", "SMB4", "SMB5", "SMB6", "SMB7"] →
    (mnemonicOf i ∈ ["ASL", "LSR", "ROL", "ROR", "INC", "DEC"] → modeOf i = .acc) → t.mem = s.mem

/-- R88: an instruction that does not transfer control ends with PC past its bytes. -/
def Obligations.SequentialInstructionsAdvancePC : Prop :=
  ∀ (i : Instr) (s t : State), exec i s = .next t →
    mnemonicOf i ∉ ["BCC", "BCS", "BEQ", "BNE", "BMI", "BPL", "BVC", "BVS", "BRA", "JMP", "JSR", "RTS", "BRK", "RTI",
      "BBR0", "BBR1", "BBR2", "BBR3", "BBR4", "BBR5", "BBR6", "BBR7",
      "BBS0", "BBS1", "BBS2", "BBS3", "BBS4", "BBS5", "BBS6", "BBS7"] →
    t.pc = s.pc + BitVec.ofNat 16 (encode i).length

/-! ### Reset and the status register (10_state.md R27, R35; 70_reset_and_hazards.md R340) -/

/-- R340, R343: what `reset()` leaves, for each source of PC. -/
def Obligations.ResetOperationSetsState : Prop :=
  ∀ s : State,
    s.doReset = { s with
                  sp := 0xFF
                  a := 0
                  x := 0
                  y := 0
                  p := .ofByte 0x30
                  cycles := 0
                  waiting := false
                  nmiPending := false
                  stopped := false
                  fault := none
                  pc := match s.cfg.resetPcSource with
                    | .vector => s.read16 0xFFFC
                    | .fixed startPc => startPc }

/-- R35: the register values of `State.reset`, and that `reset()` from there changes nothing. Its PC, `irqLine`,
configuration and memory are the model's choices (log entries 1, 2, 3, 10) and no value of theirs is stated. -/
def Obligations.ResetStateHasTheSpecsValues : Prop :=
  State.reset.sp = 0xFF ∧ State.reset.a = 0 ∧ State.reset.x = 0 ∧ State.reset.y = 0 ∧
    State.reset.p.toByte = 0x30 ∧ State.reset.cycles = 0 ∧ State.reset.waiting = false ∧
    State.reset.nmiPending = false ∧ State.reset.stopped = false ∧ State.reset.fault = none ∧
    State.reset.doReset = State.reset

/-- R26, R27: P as a byte: each flag at its bit, bit 5 always 1, and a write of any byte stores it with bit 5 set. -/
def Obligations.StatusByteHasUnusedBitSet : Prop :=
  (∀ p : Status, p.toByte.getLsbD 7 = p.n ∧ p.toByte.getLsbD 6 = p.v ∧ p.toByte.getLsbD 5 = true ∧
    p.toByte.getLsbD 4 = p.b ∧ p.toByte.getLsbD 3 = p.d ∧ p.toByte.getLsbD 2 = p.i ∧
    p.toByte.getLsbD 1 = p.z ∧ p.toByte.getLsbD 0 = p.c) ∧
  (∀ (s : State) (v : Byte), (s.hostWriteP v).p.toByte = v ||| 0x20 ∧ s.hostWriteP v = { s with p := (s.hostWriteP v).p })

/-! ### Memory and the stack (20_memory.md) -/

/-- R50: two memories in canonical form with the same bytes are the same data. -/
def Obligations.EqualBytesAreEqualMemories : Prop :=
  ∀ m m' : Memory, m.wf → m'.wf → (∀ a, a < 65536 → m.read a = m'.read a) → m = m'

/-- R51, R52: the three 16-bit reads, low byte first, with the wrap of each. -/
def Obligations.WordReadsAreLittleEndian : Prop :=
  ∀ (s : State) (a : Addr) (z : Byte),
    (s.read16 a).toNat = (s.mem.read a.toNat).toNat + 256 * (s.mem.read ((a.toNat + 1) % 65536)).toNat ∧
    (s.read16ZP z).toNat = (s.mem.read z.toNat).toNat + 256 * (s.mem.read ((z.toNat + 1) % 256)).toNat ∧
    (s.read16Page a).toNat =
      (s.mem.read a.toNat).toNat + 256 * (s.mem.read (a.toNat / 256 * 256 + (a.toNat + 1) % 256)).toNat

/-- R58, R60, R61: a push writes the cell 0x0100 + SP and lowers SP, a pop raises SP and reads; both wrap mod 256. -/
def Obligations.PushAndPopUsePageOne : Prop :=
  ∀ (s : State) (v : Byte),
    (stackCell s.sp).toNat = 0x0100 + s.sp.toNat ∧
    OnlyStored s (s.push v) (stackCell s.sp) v ∧
    s.push v = { s with mem := (s.push v).mem, sp := s.sp - 1 } ∧
    s.popByte = s.read (stackCell (s.sp + 1)) ∧
    s.dropByte = { s with sp := s.sp + 1 }

/-- R62, R63: the word pushed is the word popped, and SP is back, from any starting SP. -/
def Obligations.PopWordReturnsThePushedWord : Prop :=
  ∀ (s : State) (w : Addr),
    (s.pushWord w).popWord = w ∧ (s.pushWord w).dropWord = { s with mem := (s.pushWord w).mem } ∧
    (s.pushWord w).read (stackCell s.sp) = hiByte w ∧ (s.pushWord w).read (stackCell (s.sp - 1)) = loByte w

/-! ### The address-mode resolver (40_addressing.md) -/

/-- R113 to R122: every mode's effective address, in arithmetic on naturals, and the value an operand has there. -/
def Obligations.EffectiveAddresses : Prop :=
  ∀ (s : State) (z : Byte) (w : Addr),
    ((Operand.imm z).ea s).toNat = (s.pc.toNat + 1) % 65536 ∧ (Operand.imm z).value s = z ∧
    ((Operand.zpg z).ea s).toNat = z.toNat ∧
    ((Operand.zpx z).ea s).toNat = (z.toNat + s.x.toNat) % 256 ∧
    ((Operand.zpy z).ea s).toNat = (z.toNat + s.y.toNat) % 256 ∧
    ((Operand.abs w).ea s).toNat = w.toNat ∧
    ((Operand.absx w).ea s).toNat = (w.toNat + s.x.toNat) % 65536 ∧
    ((Operand.absy w).ea s).toNat = (w.toNat + s.y.toNat) % 65536 ∧
    ((Operand.indx z).ea s).toNat = (s.mem.read ((z.toNat + s.x.toNat) % 256)).toNat +
      256 * (s.mem.read ((z.toNat + s.x.toNat + 1) % 256)).toNat ∧
    ((Operand.indy z).ea s).toNat = ((s.mem.read z.toNat).toNat +
      256 * (s.mem.read ((z.toNat + 1) % 256)).toNat + s.y.toNat) % 65536 ∧
    ((Operand.zpi z).ea s).toNat = (s.mem.read z.toNat).toNat + 256 * (s.mem.read ((z.toNat + 1) % 256)).toNat ∧
    (∀ o : Operand, o.mode ≠ .imm → o.value s = s.mem.read (o.ea s).toNat)

/-- R112, R352: the penalty is one cycle exactly when the opcode is sensitive and the effective address of an `absx`,
`absy` or `indy` operand lies in another page than its base; and the reference set of sensitive opcodes is the read
instructions in those modes. -/
def Obligations.PageCrossCostsOneCycle : Prop :=
  ∀ (s : State) (op z : Byte) (w : Addr),
    (Operand.absx w).penalty op s = (if pageCrossSensitive s.cfg op = true ∧
      (w.toNat + s.x.toNat) % 65536 / 256 ≠ w.toNat / 256 then 1 else 0) ∧
    (Operand.absy w).penalty op s = (if pageCrossSensitive s.cfg op = true ∧
      (w.toNat + s.y.toNat) % 65536 / 256 ≠ w.toNat / 256 then 1 else 0) ∧
    (Operand.indy z).penalty op s = (if pageCrossSensitive s.cfg op = true ∧
      ((s.read16ZP z).toNat + s.y.toNat) % 65536 / 256 ≠ (s.read16ZP z).toNat / 256 then 1 else 0) ∧
    (∀ o : Operand, o.mode ∉ [.absx, .absy, .indy] → o.penalty op s = 0) ∧
    (s.cfg.pageCrossSet = .reference →
      (pageCrossSensitive s.cfg op = true ↔
        ∃ d, tableEntry op = some d ∧ d.mode ∈ [.absx, .absy, .indy] ∧
          d.mnemonic ∈ ["ADC", "AND", "BIT", "CMP", "EOR", "LDA", "LDX", "LDY", "ORA", "SBC"]))

/-! ### The ALU (42_arithmetic.md R158 to R163) -/

/-- R160: binary add: the sum mod 256, C the unsigned carry, V the signed overflow, N and Z from the masked result. -/
def Obligations.BinaryAddMatchesIntegers : Prop :=
  ∀ (a m : Byte) (cin : Bool),
    (addBin a m cin).r.toNat = (a.toNat + m.toNat + cin.toNat) % 256 ∧
    ((addBin a m cin).c = true ↔ 256 ≤ a.toNat + m.toNat + cin.toNat) ∧
    ((addBin a m cin).v = true ↔ a.toInt + m.toInt + cin.toNat < -128 ∨ 127 < a.toInt + m.toInt + cin.toNat) ∧
    ((addBin a m cin).n = true ↔ 128 ≤ (addBin a m cin).r.toNat) ∧
    ((addBin a m cin).z = true ↔ (addBin a m cin).r.toNat = 0)

/-- R163: binary subtract: the difference less the borrow mod 256, C the absence of a borrow, V the signed overflow. -/
def Obligations.BinarySubtractMatchesIntegers : Prop :=
  ∀ (a m : Byte) (cin : Bool),
    ((subBin a m cin).r.toNat : Int) = ((a.toNat : Int) - m.toNat - (1 - cin.toNat)) % 256 ∧
    ((subBin a m cin).c = true ↔ 0 ≤ (a.toNat : Int) - m.toNat - (1 - cin.toNat)) ∧
    ((subBin a m cin).v = true ↔
      a.toInt - m.toInt - (1 - cin.toNat) < -128 ∨ 127 < a.toInt - m.toInt - (1 - cin.toNat)) ∧
    subBin a m cin = addBin a (m ^^^ 0xFF) cin

/-- R158, R161, R162: the decimal law of ADC: on valid packed BCD, in every configuration, the variant's algorithm is used,
the result is valid BCD and the sum mod 100, and carry-out is the sum reaching 100. And both algorithms on all operands: the
NMOS result and C from the nibble-corrected sum, N and V from that sum before the high correction (`s`, and `t` with the
high nibbles read as signed), Z from the binary sum; on CMOS the same result, C and V, with N and Z from the result. R161
and R162 mark the algorithms as general knowledge (log entry 9). -/
def Obligations.DecimalAddLaw : Prop :=
  (∀ (cfg : Config) (a m : Byte) (cin : Bool), validBcd a = true → validBcd m = true →
    let dec := fun v : Byte => 10 * (v.toNat / 16) + v.toNat % 16
    adcDec cfg a m cin = (if cfg.variant = .nmos then adcDecNmos a m cin else adcDecCmos a m cin) ∧
    validBcd (adcDec cfg a m cin).r = true ∧
    dec (adcDec cfg a m cin).r = (dec a + dec m + cin.toNat) % 100 ∧
    ((adcDec cfg a m cin).c = true ↔ 100 ≤ dec a + dec m + cin.toNat)) ∧
  (∀ (a m : Byte) (cin : Bool) (al s : Nat) (t : Int),
    (al = if a.toNat % 16 + m.toNat % 16 + cin.toNat < 10 then a.toNat % 16 + m.toNat % 16 + cin.toNat
      else (a.toNat % 16 + m.toNat % 16 + cin.toNat + 6) % 16 + 16) →
    s = a.toNat / 16 * 16 + m.toNat / 16 * 16 + al → t = a.toInt / 16 * 16 + m.toInt / 16 * 16 + al →
    ((adcDecNmos a m cin).r.toNat = (if s < 160 then s else s + 96) % 256 ∧
      ((adcDecNmos a m cin).n = true ↔ 128 ≤ s % 256) ∧
      ((adcDecNmos a m cin).v = true ↔ t < -128 ∨ 127 < t) ∧
      ((adcDecNmos a m cin).z = true ↔ (a.toNat + m.toNat + cin.toNat) % 256 = 0) ∧
      ((adcDecNmos a m cin).c = true ↔ 256 ≤ if s < 160 then s else s + 96)) ∧
    ((adcDecCmos a m cin).r = (adcDecNmos a m cin).r ∧
      ((adcDecCmos a m cin).n = true ↔ 128 ≤ (adcDecNmos a m cin).r.toNat) ∧
      (adcDecCmos a m cin).v = (adcDecNmos a m cin).v ∧
      ((adcDecCmos a m cin).z = true ↔ (adcDecNmos a m cin).r.toNat = 0) ∧
      (adcDecCmos a m cin).c = (adcDecNmos a m cin).c))

/-- R158, R164, R165: the decimal law of SBC, by the same reading: the variant's algorithm, the difference less the borrow
mod 100, C the absence of a borrow. And both algorithms on all operands: the NMOS result from the nibble-corrected
difference with all four flags those of the binary subtract; the CMOS result from the corrected binary difference, C and V
those of the binary subtract, N and Z from the result. R164 and R165 mark the algorithms as general knowledge (log
entry 9). -/
def Obligations.DecimalSubtractLaw : Prop :=
  (∀ (cfg : Config) (a m : Byte) (cin : Bool), validBcd a = true → validBcd m = true →
    let dec := fun v : Byte => 10 * (v.toNat / 16) + v.toNat % 16
    sbcDec cfg a m cin = (if cfg.variant = .nmos then sbcDecNmos a m cin else sbcDecCmos a m cin) ∧
    validBcd (sbcDec cfg a m cin).r = true ∧
    (dec (sbcDec cfg a m cin).r : Int) = ((dec a : Int) - dec m - (1 - cin.toNat)) % 100 ∧
    ((sbcDec cfg a m cin).c = true ↔ 0 ≤ (dec a : Int) - dec m - (1 - cin.toNat))) ∧
  (∀ (a m : Byte) (cin : Bool) (low al s d : Int),
    low = (a.toNat % 16 : Nat) - (m.toNat % 16 : Nat) + (cin.toNat : Int) - 1 →
    al = (if low < 0 then (low - 6) % 16 - 16 else low) →
    s = (a.toNat / 16 * 16 : Nat) - (m.toNat / 16 * 16 : Nat) + al →
    d = (a.toNat : Int) - m.toNat + cin.toNat - 1 →
    (((sbcDecNmos a m cin).r.toNat : Int) = (if s < 0 then s - 96 else s) % 256 ∧
      (sbcDecNmos a m cin).n = (subBin a m cin).n ∧ (sbcDecNmos a m cin).v = (subBin a m cin).v ∧
      (sbcDecNmos a m cin).z = (subBin a m cin).z ∧ (sbcDecNmos a m cin).c = (subBin a m cin).c) ∧
    (((sbcDecCmos a m cin).r.toNat : Int) =
        (d - (if d < 0 then 96 else 0) - (if low < 0 then 6 else 0)) % 256 ∧
      ((sbcDecCmos a m cin).n = true ↔ 128 ≤ (sbcDecCmos a m cin).r.toNat) ∧
      (sbcDecCmos a m cin).v = (subBin a m cin).v ∧
      ((sbcDecCmos a m cin).z = true ↔ (sbcDecCmos a m cin).r.toNat = 0) ∧
      (sbcDecCmos a m cin).c = (subBin a m cin).c))

/-! ### Loads, stores, transfers (41_load_store_transfer.md) -/

/-- R140 to R142: every load form puts the operand in its register, sets N and Z from it, and changes nothing else. -/
def Obligations.LoadsSetRegisterAndNZ : Prop :=
  ∀ (s : State) (b : Byte) (w : Addr),
    (∀ f ∈ ldaForms b w, f.encoded "LDA" ∧ ∀ v, f.operand.value s = v →
      exec f.instr s = .next { s with
                                a := v
                                p := { s.p with n := v.getLsbD 7, z := decide (v = 0) }
                                pc := f.nextPC s
                                cycles := f.cyclesAfter s }) ∧
    (∀ f ∈ ldxForms b w, f.encoded "LDX" ∧ ∀ v, f.operand.value s = v →
      exec f.instr s = .next { s with
                                x := v
                                p := { s.p with n := v.getLsbD 7, z := decide (v = 0) }
                                pc := f.nextPC s
                                cycles := f.cyclesAfter s }) ∧
    (∀ f ∈ ldyForms b w, f.encoded "LDY" ∧ ∀ v, f.operand.value s = v →
      exec f.instr s = .next { s with
                                y := v
                                p := { s.p with n := v.getLsbD 7, z := decide (v = 0) }
                                pc := f.nextPC s
                                cycles := f.cyclesAfter s })

/-- R143 to R146: every store form writes one byte at its effective address and no flag, and changes nothing else. -/
def Obligations.StoresWriteOneByte : Prop :=
  ∀ (s : State) (b : Byte) (w : Addr),
    let stores := fun (mn : String) (v : Byte) (f : Form) =>
      f.encoded mn ∧ ∃ t, exec f.instr s = .next t ∧ OnlyStored s t (f.operand.ea s) v ∧
        t = { s with mem := t.mem, pc := f.nextPC s, cycles := f.cyclesAfter s }
    (∀ f ∈ staForms b w, stores "STA" s.a f) ∧ (∀ f ∈ stxForms b w, stores "STX" s.x f) ∧
    (∀ f ∈ styForms b w, stores "STY" s.y f) ∧ (∀ f ∈ stzForms b w, stores "STZ" 0 f)

/-- R147 to R152: the transfers; TXS alone writes no flag. -/
def Obligations.TransfersCopyRegisters : Prop :=
  ∀ s : State,
    let after := fun (op v : Byte) =>
      { s with
        p := { s.p with n := v.getLsbD 7, z := decide (v = 0) }
        pc := s.pc + 1
        cycles := s.cycles + baseCycles s.cfg op }
    (EncodedAs "TAX" 0xAA .imp .both .tax ∧ exec .tax s = .next { after 0xAA s.a with x := s.a }) ∧
    (EncodedAs "TAY" 0xA8 .imp .both .tay ∧ exec .tay s = .next { after 0xA8 s.a with y := s.a }) ∧
    (EncodedAs "TXA" 0x8A .imp .both .txa ∧ exec .txa s = .next { after 0x8A s.x with a := s.x }) ∧
    (EncodedAs "TYA" 0x98 .imp .both .tya ∧ exec .tya s = .next { after 0x98 s.y with a := s.y }) ∧
    (EncodedAs "TSX" 0xBA .imp .both .tsx ∧ exec .tsx s = .next { after 0xBA s.sp with x := s.sp }) ∧
    (EncodedAs "TXS" 0x9A .imp .both .txs ∧
      exec .txs s = .next { s with sp := s.x, pc := s.pc + 1, cycles := s.cycles + baseCycles s.cfg 0x9A })

/-! ### Arithmetic (42_arithmetic.md R166 to R177) -/

/-- R166: ADC in every form: the ALU function that P.D, the variant and (for operands that are not BCD) DECIMAL_NONBCD
select; A and N, V, Z, C from it; nothing else. -/
def Obligations.AdcAddsWithCarry : Prop :=
  ∀ (s : State) (b : Byte) (w : Addr), ∀ f ∈ adcForms b w, f.encoded "ADC" ∧ ∀ m r, f.operand.value s = m →
    r = (if s.p.d = false then addBin s.a m s.p.c
      else if s.cfg.decimalNonBcd = .implementation ∧ ¬(validBcd s.a = true ∧ validBcd m = true) then
        Config.nonBcdAdd s.cfg.variant s.a m s.p.c
      else if s.cfg.variant = .nmos then adcDecNmos s.a m s.p.c
      else adcDecCmos s.a m s.p.c) →
    exec f.instr s = .next { s with
                              a := r.r
                              p := { s.p with n := r.n, v := r.v, z := r.z, c := r.c }
                              pc := f.nextPC s
                              cycles := f.cyclesAfter s }

/-- R167: SBC in every form, as ADC with the subtract functions. -/
def Obligations.SbcSubtractsWithBorrow : Prop :=
  ∀ (s : State) (b : Byte) (w : Addr), ∀ f ∈ sbcForms b w, f.encoded "SBC" ∧ ∀ m r, f.operand.value s = m →
    r = (if s.p.d = false then subBin s.a m s.p.c
      else if s.cfg.decimalNonBcd = .implementation ∧ ¬(validBcd s.a = true ∧ validBcd m = true) then
        Config.nonBcdSub s.cfg.variant s.a m s.p.c
      else if s.cfg.variant = .nmos then sbcDecNmos s.a m s.p.c
      else sbcDecCmos s.a m s.p.c) →
    exec f.instr s = .next { s with
                              a := r.r
                              p := { s.p with n := r.n, v := r.v, z := r.z, c := r.c }
                              pc := f.nextPC s
                              cycles := f.cyclesAfter s }

/-- R168 to R171: the compares: C when the register is at least the operand, Z when equal, N bit 7 of the difference;
binary whatever P.D; the register, V and everything else unchanged. -/
def Obligations.ComparesSetCarryZeroNegative : Prop :=
  ∀ (s : State) (b : Byte) (w : Addr),
    let compares := fun (mn : String) (r : Byte) (f : Form) =>
      f.encoded mn ∧ ∀ m, f.operand.value s = m →
        exec f.instr s = .next { s with
                                  p := { s.p with
                                    c := decide (m.toNat ≤ r.toNat)
                                    z := decide (r = m)
                                    n := decide (128 ≤ (r.toNat + 256 - m.toNat) % 256) }
                                  pc := f.nextPC s
                                  cycles := f.cyclesAfter s }
    (∀ f ∈ cmpForms b w, compares "CMP" s.a f) ∧ (∀ f ∈ cpxForms b w, compares "CPX" s.x f) ∧
    (∀ f ∈ cpyForms b w, compares "CPY" s.y f)

/-- R172, R173: INC and DEC on memory: one byte, N and Z from the result; C, V and everything else unchanged. -/
def Obligations.IncDecStepMemory : Prop :=
  ∀ (s : State) (b : Byte) (w : Addr),
    let steps := fun (mn : String) (delta : Nat) (f : Form) =>
      f.encoded mn ∧ ∃ r t, r = BitVec.ofNat 8 ((f.operand.value s).toNat + delta) ∧ exec f.instr s = .next t ∧
        OnlyStored s t (f.operand.ea s) r ∧
        t = { s with
              mem := t.mem
              p := { s.p with n := r.getLsbD 7, z := decide (r = 0) }
              pc := f.nextPC s
              cycles := f.cyclesAfter s }
    (∀ f ∈ incMemoryForms b w, steps "INC" 1 f) ∧ (∀ f ∈ decMemoryForms b w, steps "DEC" 255 f)

/-- R172 to R177: INC A, DEC A, INX, INY, DEX, DEY: the register one up or down mod 256, N and Z from it, nothing else. -/
def Obligations.IncDecStepRegisters : Prop :=
  ∀ s : State,
    let after := fun (op v : Byte) =>
      { s with
        p := { s.p with n := v.getLsbD 7, z := decide (v = 0) }
        pc := s.pc + 1
        cycles := s.cycles + baseCycles s.cfg op }
    let up := fun v : Byte => BitVec.ofNat 8 (v.toNat + 1)
    let down := fun v : Byte => BitVec.ofNat 8 (v.toNat + 255)
    (EncodedAs "INC" 0x1A .acc .cmos .incAcc ∧ exec .incAcc s = .next { after 0x1A (up s.a) with a := up s.a }) ∧
    (EncodedAs "DEC" 0x3A .acc .cmos .decAcc ∧ exec .decAcc s = .next { after 0x3A (down s.a) with a := down s.a }) ∧
    (EncodedAs "INX" 0xE8 .imp .both .inx ∧ exec .inx s = .next { after 0xE8 (up s.x) with x := up s.x }) ∧
    (EncodedAs "INY" 0xC8 .imp .both .iny ∧ exec .iny s = .next { after 0xC8 (up s.y) with y := up s.y }) ∧
    (EncodedAs "DEX" 0xCA .imp .both .dex ∧ exec .dex s = .next { after 0xCA (down s.x) with x := down s.x }) ∧
    (EncodedAs "DEY" 0x88 .imp .both .dey ∧ exec .dey s = .next { after 0x88 (down s.y) with y := down s.y })

/-! ### Logic, bit test, shifts, bit operations (43_logic_shift_bit.md) -/

/-- R190 to R192: AND, ORA, EOR in every form, bit by bit; N and Z from the result, nothing else. -/
def Obligations.LogicWorksBitwise : Prop :=
  ∀ (s : State) (b : Byte) (w : Addr),
    let combines := fun (mn : String) (g : Bool → Bool → Bool) (f : Form) =>
      f.encoded mn ∧ ∃ r : Byte, (∀ k, k < 8 → r.getLsbD k = g (s.a.getLsbD k) ((f.operand.value s).getLsbD k)) ∧
        exec f.instr s = .next { s with
                                  a := r
                                  p := { s.p with n := r.getLsbD 7, z := decide (r = 0) }
                                  pc := f.nextPC s
                                  cycles := f.cyclesAfter s }
    (∀ f ∈ andForms b w, combines "AND" (fun x y => x && y) f) ∧
    (∀ f ∈ oraForms b w, combines "ORA" (fun x y => x || y) f) ∧
    (∀ f ∈ eorForms b w, combines "EOR" (fun x y => x != y) f)

/-- R193, R287: BIT: Z from A AND M; the memory forms copy operand bits 7 and 6 to N and V, the immediate form writes Z
alone; A and everything else unchanged. -/
def Obligations.BitTestsMemory : Prop :=
  ∀ (s : State) (b : Byte) (w : Addr),
    (∀ f ∈ bitMemoryForms b w, f.encoded "BIT" ∧ ∀ m, f.operand.value s = m →
      exec f.instr s = .next { s with
                                p := { s.p with
                                  n := m.getLsbD 7
                                  v := m.getLsbD 6
                                  z := (List.range 8).all fun k => !(s.a.getLsbD k && m.getLsbD k) }
                                pc := f.nextPC s
                                cycles := f.cyclesAfter s }) ∧
    (EncodedAs "BIT" 0x89 .imm .cmos (.bitImm b) ∧
      exec (.bitImm b) s = .next { s with
                                    p := { s.p with
                                      z := (List.range 8).all fun k => !(s.a.getLsbD k && b.getLsbD k) }
                                    pc := s.pc + 2
                                    cycles := s.cycles + baseCycles s.cfg 0x89 })

/-- R194 to R197: the shifts and rotates of A, in arithmetic on naturals; C is the bit shifted out; V and everything else
unchanged. -/
def Obligations.ShiftsMoveAccumulator : Prop :=
  ∀ s : State,
    let shifts := fun (mn : String) (op : Byte) (i : Instr) (r : Nat) (carry : Prop) (_ : Decidable carry) =>
      EncodedAs mn op .acc .both i ∧
        exec i s = .next { s with
                            a := BitVec.ofNat 8 r
                            p := { s.p with n := decide (128 ≤ r % 256), z := decide (r % 256 = 0), c := decide carry }
                            pc := s.pc + 1
                            cycles := s.cycles + baseCycles s.cfg op }
    shifts "ASL" 0x0A .aslAcc (s.a.toNat * 2) (128 ≤ s.a.toNat) inferInstance ∧
    shifts "LSR" 0x4A .lsrAcc (s.a.toNat / 2) (s.a.toNat % 2 = 1) inferInstance ∧
    shifts "ROL" 0x2A .rolAcc (s.a.toNat * 2 + s.p.c.toNat) (128 ≤ s.a.toNat) inferInstance ∧
    shifts "ROR" 0x6A .rorAcc (s.a.toNat / 2 + 128 * s.p.c.toNat) (s.a.toNat % 2 = 1) inferInstance

/-- R194 to R197: the shifts and rotates of a memory byte. -/
def Obligations.ShiftsMoveMemory : Prop :=
  ∀ (s : State) (b : Byte) (w : Addr),
    let shifts := fun (mn : String) (f : Form) (r : Nat) (carry : Bool) =>
      f.encoded mn ∧ ∃ t, exec f.instr s = .next t ∧ OnlyStored s t (f.operand.ea s) (BitVec.ofNat 8 r) ∧
        t = { s with
              mem := t.mem
              p := { s.p with n := decide (128 ≤ r % 256), z := decide (r % 256 = 0), c := carry }
              pc := f.nextPC s
              cycles := f.cyclesAfter s }
    (∀ f ∈ aslMemoryForms b w, ∀ v : Nat, (f.operand.value s).toNat = v →
      shifts "ASL" f (v * 2) (decide (128 ≤ v))) ∧
    (∀ f ∈ lsrMemoryForms b w, ∀ v : Nat, (f.operand.value s).toNat = v →
      shifts "LSR" f (v / 2) (decide (v % 2 = 1))) ∧
    (∀ f ∈ rolMemoryForms b w, ∀ v : Nat, (f.operand.value s).toNat = v →
      shifts "ROL" f (v * 2 + s.p.c.toNat) (decide (128 ≤ v))) ∧
    (∀ f ∈ rorMemoryForms b w, ∀ v : Nat, (f.operand.value s).toNat = v →
      shifts "ROR" f (v / 2 + 128 * s.p.c.toNat) (decide (v % 2 = 1)))

/-- R198, R199: TSB and TRB: Z from the byte before the write; each bit of A set (TSB) or cleared (TRB) in the byte; no
other flag, nothing else. -/
def Obligations.TestAndSetResetBits : Prop :=
  ∀ (s : State) (b : Byte) (w : Addr),
    let modifies := fun (mn : String) (g : Bool → Bool → Bool) (f : Form) =>
      f.encoded mn ∧ ∃ t r, exec f.instr s = .next t ∧ OnlyStored s t (f.operand.ea s) r ∧
        (∀ k, k < 8 → r.getLsbD k = g ((f.operand.value s).getLsbD k) (s.a.getLsbD k)) ∧
        t = { s with
              mem := t.mem
              p := { s.p with z := decide (s.a &&& f.operand.value s = 0) }
              pc := f.nextPC s
              cycles := f.cyclesAfter s }
    (∀ f ∈ tsbForms b w, modifies "TSB" (fun m a => m || a) f) ∧
    (∀ f ∈ trbForms b w, modifies "TRB" (fun m a => m && !a) f)

/-- R200 to R215: RMBn clears and SMBn sets bit n of the zero-page byte; the other seven bits, every flag and everything
else are unchanged. -/
def Obligations.ResetAndSetMemoryBits : Prop :=
  ∀ (s : State) (z : Byte),
    let modifies := fun (value : Bool) (row : BitRow) =>
      EncodedAs row.mnemonic row.op .zpg .cmos row.instr ∧
      ∃ t r, exec row.instr s = .next t ∧ OnlyStored s t (zeroPage z) r ∧
        (∀ k, k < 8 → r.getLsbD k = if k = row.bit then value else (s.read (zeroPage z)).getLsbD k) ∧
        t = { s with mem := t.mem, pc := s.pc + 2, cycles := s.cycles + baseCycles s.cfg row.op }
    (∀ row ∈ rmbRows z, modifies false row) ∧ (∀ row ∈ smbRows z, modifies true row)

/-! ### Control transfer (44_control_transfer.md; 47_cmos_optional.md R270 to R286) -/

/-- R220 to R229, R120: every branch: the target is the signed offset from the next instruction, the base count is 2, a
taken branch costs one cycle more and one more across a page; no flag, nothing else. The base count is stated where the
table holds the opcode (log entry 13). -/
def Obligations.BranchesGoToTarget : Prop :=
  ∀ (s : State) (off : Byte),
    ∀ row ∈ [("BCC", (0x90 : Byte), Availability.both, Instr.bcc off, !s.p.c), ("BCS", 0xB0, .both, .bcs off, s.p.c),
        ("BEQ", 0xF0, .both, .beq off, s.p.z), ("BNE", 0xD0, .both, .bne off, !s.p.z),
        ("BMI", 0x30, .both, .bmi off, s.p.n), ("BPL", 0x10, .both, .bpl off, !s.p.n),
        ("BVC", 0x50, .both, .bvc off, !s.p.v), ("BVS", 0x70, .both, .bvs off, s.p.v),
        ("BRA", 0x80, .cmos, .bra off, true)],
      EncodedAs row.1 row.2.1 .rel row.2.2.1 row.2.2.2.1 ∧
      (s.cfg.cycleTable = .reference → row.2.2.1.definedIn s.cfg = true → baseCycles s.cfg row.2.1 = 2) ∧
      ∀ target : Addr, target = BitVec.ofInt 16 (s.pc.toNat + 2 + off.toInt) →
        exec row.2.2.2.1 s = .next { s with
          pc := if row.2.2.2.2 = true then target else s.pc + 2
          cycles := s.cycles + baseCycles s.cfg row.2.1 +
            (if row.2.2.2.2 = true then (if target.toNat / 256 = (s.pc + 2).toNat / 256 then 1 else 2) else 0) }

/-- R270 to R286, R124: BBRn and BBSn: the same branch from the byte after their three, on bit n of a zero-page byte. The
base count is stated on CMOS, where R351 has one (log entry 13). -/
def Obligations.BitBranchesGoToTarget : Prop :=
  ∀ (s : State) (z off : Byte),
    let branches := fun (want : Bool) (row : BitRow) =>
      EncodedAs row.mnemonic row.op .zrel .wdc row.instr ∧
      (s.cfg.cycleTable = .reference → s.cfg.variant = .cmos → baseCycles s.cfg row.op = 5) ∧
      ∀ target : Addr, target = BitVec.ofInt 16 (s.pc.toNat + 3 + off.toInt) →
        exec row.instr s = .next { s with
          pc := if (s.mem.read z.toNat).getLsbD row.bit = want then target else s.pc + 3
          cycles := s.cycles + baseCycles s.cfg row.op +
            (if (s.mem.read z.toNat).getLsbD row.bit = want then
              (if target.toNat / 256 = (s.pc + 3).toNat / 256 then 1 else 2) else 0) }
    (∀ row ∈ bbrRows z off, branches false row) ∧ (∀ row ∈ bbsRows z off, branches true row)

/-- R230, R118, R123: JMP in its three forms, with the NMOS page-wrap bug of `ind` and CMOS's fix; no flag, nothing
else. -/
def Obligations.JumpsSetPC : Prop :=
  ∀ (s : State) (w : Addr),
    let jumps := fun (op : Byte) (m : Mode) (av : Availability) (i : Instr) (lo hi : Nat) =>
      EncodedAs "JMP" op m av i ∧
        exec i s = .next { s with
                            pc := word (s.mem.read hi) (s.mem.read lo)
                            cycles := s.cycles + baseCycles s.cfg op }
    EncodedAs "JMP" 0x4C .abs .both (.jmpAbs w) ∧
    exec (.jmpAbs w) s = .next { s with pc := w, cycles := s.cycles + baseCycles s.cfg 0x4C } ∧
    (s.cfg.variant = .nmos → (s.cfg.cycleTable = .reference → baseCycles s.cfg 0x6C = 5) ∧
      jumps 0x6C .ind .both (.jmpInd w) w.toNat (w.toNat / 256 * 256 + (w.toNat + 1) % 256)) ∧
    (s.cfg.variant = .cmos → (s.cfg.cycleTable = .reference → baseCycles s.cfg 0x6C = 6) ∧
      jumps 0x6C .ind .both (.jmpInd w) w.toNat ((w.toNat + 1) % 65536)) ∧
    jumps 0x7C .iax .cmos (.jmpIax w) ((w.toNat + s.x.toNat) % 65536) ((w.toNat + s.x.toNat + 1) % 65536)

/-- R231: JSR pushes the address of its last byte, high byte first, and jumps; no flag, nothing else. -/
def Obligations.JsrPushesReturnAddress : Prop :=
  ∀ (s : State) (w : Addr), EncodedAs "JSR" 0x20 .abs .both (.jsr w) ∧
    (s.cfg.cycleTable = .reference → baseCycles s.cfg 0x20 = 6) ∧
    ∃ t, exec (.jsr w) s = .next t ∧
      t.read (stackCell s.sp) = hiByte (s.pc + 2) ∧ t.read (stackCell (s.sp - 1)) = loByte (s.pc + 2) ∧
      (∀ a, a ≠ stackCell s.sp → a ≠ stackCell (s.sp - 1) → t.read a = s.read a) ∧
      t = { s with mem := t.mem, sp := s.sp - 2, pc := w, cycles := s.cycles + baseCycles s.cfg 0x20 }

/-- R232: RTS pops PC, low byte first, and adds one; and after JSR it returns past the call with SP restored. -/
def Obligations.RtsReturnsPastTheCall : Prop :=
  ∀ (s : State) (w : Addr), EncodedAs "RTS" 0x60 .imp .both .rts ∧
    (s.cfg.cycleTable = .reference → baseCycles s.cfg 0x60 = 6) ∧
    exec .rts s = .next { s with
                          pc := word (s.read (stackCell (s.sp + 2))) (s.read (stackCell (s.sp + 1))) + 1
                          sp := s.sp + 2
                          cycles := s.cycles + baseCycles s.cfg 0x60 } ∧
    ∃ t u, exec (.jsr w) s = .next t ∧ exec .rts t = .next u ∧ u.pc = s.pc + 3 ∧ u.sp = s.sp

/-! ### Stack, flags, NOP (45_stack_flags_misc.md; 47_cmos_optional.md R289) -/

/-- R240 to R243: the pushes; PHP's byte has B and U set whatever P.B holds; no flag, nothing else. -/
def Obligations.PushesStoreOneByte : Prop :=
  ∀ s : State,
    let pushes := fun (mn : String) (op : Byte) (av : Availability) (i : Instr) (v : Byte) =>
      EncodedAs mn op .imp av i ∧ ∃ t, exec i s = .next t ∧ OnlyStored s t (stackCell s.sp) v ∧
        t = { s with mem := t.mem, sp := s.sp - 1, pc := s.pc + 1, cycles := s.cycles + baseCycles s.cfg op }
    pushes "PHA" 0x48 .both .pha s.a ∧ pushes "PHP" 0x08 .both .php (s.p.toByte ||| 0x30) ∧
    pushes "PHX" 0xDA .cmos .phx s.x ∧ pushes "PHY" 0x5A .cmos .phy s.y

/-- R244 to R247: the pulls; PLP restores six flags and forces B (and U) to 1; nothing else. -/
def Obligations.PullsReadOneByte : Prop :=
  ∀ (s : State) (v : Byte), s.read (stackCell (s.sp + 1)) = v →
    let after := fun op : Byte =>
      { s with sp := s.sp + 1, pc := s.pc + 1, cycles := s.cycles + baseCycles s.cfg op }
    let nz := { s.p with n := v.getLsbD 7, z := decide (v = 0) }
    (EncodedAs "PLA" 0x68 .imp .both .pla ∧ exec .pla s = .next { after 0x68 with a := v, p := nz }) ∧
    (EncodedAs "PLX" 0xFA .imp .cmos .plx ∧ exec .plx s = .next { after 0xFA with x := v, p := nz }) ∧
    (EncodedAs "PLY" 0x7A .imp .cmos .ply ∧ exec .ply s = .next { after 0x7A with y := v, p := nz }) ∧
    (EncodedAs "PLP" 0x28 .imp .both .plp ∧
      exec .plp s = .next { after 0x28 with
                            p := { n := v.getLsbD 7
                                   v := v.getLsbD 6
                                   b := true
                                   d := v.getLsbD 3
                                   i := v.getLsbD 2
                                   z := v.getLsbD 1
                                   c := v.getLsbD 0 } })

/-- R248 to R254: each flag instruction writes its one flag and nothing else. -/
def Obligations.FlagInstructionsWriteOneFlag : Prop :=
  ∀ s : State,
    let sets := fun (mn : String) (op : Byte) (i : Instr) (p : Status) =>
      EncodedAs mn op .imp .both i ∧
        exec i s = .next { s with p := p, pc := s.pc + 1, cycles := s.cycles + baseCycles s.cfg op }
    sets "CLC" 0x18 .clc { s.p with c := false } ∧ sets "SEC" 0x38 .sec { s.p with c := true } ∧
    sets "CLI" 0x58 .cli { s.p with i := false } ∧ sets "SEI" 0x78 .sei { s.p with i := true } ∧
    sets "CLD" 0xD8 .cld { s.p with d := false } ∧ sets "SED" 0xF8 .sed { s.p with d := true } ∧
    sets "CLV" 0xB8 .clv { s.p with v := false }

/-- R255, R289: NOP and the 44 optional NOPs, with the mode, length and base cycles of R289's table: they move PC past
their bytes, count their cycles, and change nothing else. -/
def Obligations.NopsOnlyAdvance : Prop :=
  ∀ (s : State) (b : Byte) (w : Addr),
    (EncodedAs "NOP" 0xEA .imp .both .nop ∧ (s.cfg.cycleTable = .reference → baseCycles s.cfg 0xEA = 2) ∧
      exec .nop s = .next { s with pc := s.pc + 1, cycles := s.cycles + baseCycles s.cfg 0xEA }) ∧
    (∀ row ∈ optionalNops b w,
      EncodedAs "NOP" row.op row.mode .wdc row.instr ∧
      (s.cfg.cycleTable = .reference → s.cfg.variant = .cmos → baseCycles s.cfg row.op = row.cycles) ∧
      exec row.instr s = .next { s with
                                  pc := s.pc + BitVec.ofNat 16 row.len
                                  cycles := s.cycles + baseCycles s.cfg row.op })

/-! ### System (46_system.md; 47_cmos_optional.md R288) -/

/-- R260: BRK pushes the address two past its own and the status with B and U set, sets I and B, clears D on CMOS only,
and takes PC from the IRQ vector, whatever P.I holds; nothing else. -/
def Obligations.BrkEntersIrqVector : Prop :=
  ∀ s : State, EncodedAs "BRK" 0x00 .imp .both .brk ∧
    (s.cfg.cycleTable = .reference → baseCycles s.cfg 0x00 = 7) ∧
    ∃ t, exec .brk s = .next t ∧
      t.read (stackCell s.sp) = hiByte (s.pc + 2) ∧
      t.read (stackCell (s.sp - 1)) = loByte (s.pc + 2) ∧
      t.read (stackCell (s.sp - 2)) = s.p.toByte ||| 0x30 ∧
      (∀ a, a ≠ stackCell s.sp → a ≠ stackCell (s.sp - 1) → a ≠ stackCell (s.sp - 2) → t.read a = s.read a) ∧
      t = { s with
            mem := t.mem
            sp := s.sp - 3
            p := { s.p with i := true, b := true, d := if s.cfg.variant = .cmos then false else s.p.d }
            pc := t.read16 0xFFFE
            cycles := s.cycles + baseCycles s.cfg 0x00 }

/-- R261: RTI takes P from the popped byte with B and U set, then PC with no increment; nothing else. -/
def Obligations.RtiRestoresStatusAndPC : Prop :=
  ∀ (s : State) (v : Byte), s.read (stackCell (s.sp + 1)) = v →
    EncodedAs "RTI" 0x40 .imp .both .rti ∧
    (s.cfg.cycleTable = .reference → baseCycles s.cfg 0x40 = 6) ∧
    exec .rti s = .next { s with
                          p := { n := v.getLsbD 7
                                 v := v.getLsbD 6
                                 b := true
                                 d := v.getLsbD 3
                                 i := v.getLsbD 2
                                 z := v.getLsbD 1
                                 c := v.getLsbD 0 }
                          pc := word (s.read (stackCell (s.sp + 3))) (s.read (stackCell (s.sp + 2)))
                          sp := s.sp + 3
                          cycles := s.cycles + baseCycles s.cfg 0x40 }

/-- R262, R288: WAI sets `waiting` and STP sets `stopped`, each past its byte and with nothing else; after STP every step
changes nothing, whatever is requested. That the steps after STP answer the same state as a next state is the model's
reading (log entry 4, DEDUCED). The base counts are stated on CMOS, where R351 has them; what the model counts for either on
NMOS is its own (log entry 13, DESIGN CHOICE). -/
def Obligations.WaiWaitsAndStpStops : Prop :=
  ∀ s : State,
    (s.cfg.cycleTable = .reference → s.cfg.variant = .cmos →
      baseCycles s.cfg 0xCB = 3 ∧ baseCycles s.cfg 0xDB = 3) ∧
    EncodedAs "WAI" 0xCB .imp .cmos .wai ∧
    exec .wai s = .next { s with waiting := true, pc := s.pc + 1, cycles := s.cycles + baseCycles s.cfg 0xCB } ∧
    EncodedAs "STP" 0xDB .imp .wdc .stp ∧
    ∃ t, exec .stp s = .next t ∧
      t = { s with stopped := true, pc := s.pc + 1, cycles := s.cycles + baseCycles s.cfg 0xDB } ∧
      step t = .next t ∧ ∀ k, step (t.requestInterrupt k) = .next (t.requestInterrupt k)
end

