-- ==== Sys2Proof/Laws/State.lean ====
section
/-! SUPPORT. One lemma per field per update of the state (true by rfl, or by the lemmas of the updates an operation is made of), so that no later proof unfolds a record update:
the setters, a memory write, the advance past an instruction, the stack primitives, taking and returning from an
exception. Then the setters of a named register, and what a read sees after each update that leaves memory alone. -/

namespace Sys2Proof.Machine

variable (s : State)

@[simp] theorem State.setPC_cfg (v : Addr) : (s.setPC v).cfg = s.cfg := rfl
@[simp] theorem State.setPC_pc (v : Addr) : (s.setPC v).pc = v := rfl
@[simp] theorem State.setPC_sp (v : Addr) : (s.setPC v).sp = s.sp := rfl
@[simp] theorem State.setPC_a (v : Addr) : (s.setPC v).a = s.a := rfl
@[simp] theorem State.setPC_x (v : Addr) : (s.setPC v).x = s.x := rfl
@[simp] theorem State.setPC_y (v : Addr) : (s.setPC v).y = s.y := rfl
@[simp] theorem State.setPC_p (v : Addr) : (s.setPC v).p = s.p := rfl
@[simp] theorem State.setPC_cycles (v : Addr) : (s.setPC v).cycles = s.cycles := rfl
@[simp] theorem State.setPC_waiting (v : Addr) : (s.setPC v).waiting = s.waiting := rfl
@[simp] theorem State.setPC_nmiPending (v : Addr) : (s.setPC v).nmiPending = s.nmiPending := rfl
@[simp] theorem State.setPC_irqLine (v : Addr) : (s.setPC v).irqLine = s.irqLine := rfl
@[simp] theorem State.setPC_stopped (v : Addr) : (s.setPC v).stopped = s.stopped := rfl
@[simp] theorem State.setPC_fault (v : Addr) : (s.setPC v).fault = s.fault := rfl
@[simp] theorem State.setPC_mem (v : Addr) : (s.setPC v).mem = s.mem := rfl
@[simp] theorem State.read_setPC (v : Addr) (k : Addr) : (s.setPC v).read k = s.read k := rfl

@[simp] theorem State.setSP_cfg (v : Byte) : (s.setSP v).cfg = s.cfg := rfl
@[simp] theorem State.setSP_pc (v : Byte) : (s.setSP v).pc = s.pc := rfl
@[simp] theorem State.setSP_sp (v : Byte) : (s.setSP v).sp = v := rfl
@[simp] theorem State.setSP_a (v : Byte) : (s.setSP v).a = s.a := rfl
@[simp] theorem State.setSP_x (v : Byte) : (s.setSP v).x = s.x := rfl
@[simp] theorem State.setSP_y (v : Byte) : (s.setSP v).y = s.y := rfl
@[simp] theorem State.setSP_p (v : Byte) : (s.setSP v).p = s.p := rfl
@[simp] theorem State.setSP_cycles (v : Byte) : (s.setSP v).cycles = s.cycles := rfl
@[simp] theorem State.setSP_waiting (v : Byte) : (s.setSP v).waiting = s.waiting := rfl
@[simp] theorem State.setSP_nmiPending (v : Byte) : (s.setSP v).nmiPending = s.nmiPending := rfl
@[simp] theorem State.setSP_irqLine (v : Byte) : (s.setSP v).irqLine = s.irqLine := rfl
@[simp] theorem State.setSP_stopped (v : Byte) : (s.setSP v).stopped = s.stopped := rfl
@[simp] theorem State.setSP_fault (v : Byte) : (s.setSP v).fault = s.fault := rfl
@[simp] theorem State.setSP_mem (v : Byte) : (s.setSP v).mem = s.mem := rfl
@[simp] theorem State.read_setSP (v : Byte) (k : Addr) : (s.setSP v).read k = s.read k := rfl

@[simp] theorem State.setP_cfg (v : Status) : (s.setP v).cfg = s.cfg := rfl
@[simp] theorem State.setP_pc (v : Status) : (s.setP v).pc = s.pc := rfl
@[simp] theorem State.setP_sp (v : Status) : (s.setP v).sp = s.sp := rfl
@[simp] theorem State.setP_a (v : Status) : (s.setP v).a = s.a := rfl
@[simp] theorem State.setP_x (v : Status) : (s.setP v).x = s.x := rfl
@[simp] theorem State.setP_y (v : Status) : (s.setP v).y = s.y := rfl
@[simp] theorem State.setP_p (v : Status) : (s.setP v).p = v := rfl
@[simp] theorem State.setP_cycles (v : Status) : (s.setP v).cycles = s.cycles := rfl
@[simp] theorem State.setP_waiting (v : Status) : (s.setP v).waiting = s.waiting := rfl
@[simp] theorem State.setP_nmiPending (v : Status) : (s.setP v).nmiPending = s.nmiPending := rfl
@[simp] theorem State.setP_irqLine (v : Status) : (s.setP v).irqLine = s.irqLine := rfl
@[simp] theorem State.setP_stopped (v : Status) : (s.setP v).stopped = s.stopped := rfl
@[simp] theorem State.setP_fault (v : Status) : (s.setP v).fault = s.fault := rfl
@[simp] theorem State.setP_mem (v : Status) : (s.setP v).mem = s.mem := rfl
@[simp] theorem State.read_setP (v : Status) (k : Addr) : (s.setP v).read k = s.read k := rfl

@[simp] theorem State.setNZ_cfg (v : Byte) : (s.setNZ v).cfg = s.cfg := rfl
@[simp] theorem State.setNZ_pc (v : Byte) : (s.setNZ v).pc = s.pc := rfl
@[simp] theorem State.setNZ_sp (v : Byte) : (s.setNZ v).sp = s.sp := rfl
@[simp] theorem State.setNZ_a (v : Byte) : (s.setNZ v).a = s.a := rfl
@[simp] theorem State.setNZ_x (v : Byte) : (s.setNZ v).x = s.x := rfl
@[simp] theorem State.setNZ_y (v : Byte) : (s.setNZ v).y = s.y := rfl
@[simp] theorem State.setNZ_p (v : Byte) : (s.setNZ v).p = s.p.nz v := rfl
@[simp] theorem State.setNZ_cycles (v : Byte) : (s.setNZ v).cycles = s.cycles := rfl
@[simp] theorem State.setNZ_waiting (v : Byte) : (s.setNZ v).waiting = s.waiting := rfl
@[simp] theorem State.setNZ_nmiPending (v : Byte) : (s.setNZ v).nmiPending = s.nmiPending := rfl
@[simp] theorem State.setNZ_irqLine (v : Byte) : (s.setNZ v).irqLine = s.irqLine := rfl
@[simp] theorem State.setNZ_stopped (v : Byte) : (s.setNZ v).stopped = s.stopped := rfl
@[simp] theorem State.setNZ_fault (v : Byte) : (s.setNZ v).fault = s.fault := rfl
@[simp] theorem State.setNZ_mem (v : Byte) : (s.setNZ v).mem = s.mem := rfl
@[simp] theorem State.read_setNZ (v : Byte) (k : Addr) : (s.setNZ v).read k = s.read k := rfl

@[simp] theorem State.addCycles_cfg (n : Nat) : (s.addCycles n).cfg = s.cfg := rfl
@[simp] theorem State.addCycles_pc (n : Nat) : (s.addCycles n).pc = s.pc := rfl
@[simp] theorem State.addCycles_sp (n : Nat) : (s.addCycles n).sp = s.sp := rfl
@[simp] theorem State.addCycles_a (n : Nat) : (s.addCycles n).a = s.a := rfl
@[simp] theorem State.addCycles_x (n : Nat) : (s.addCycles n).x = s.x := rfl
@[simp] theorem State.addCycles_y (n : Nat) : (s.addCycles n).y = s.y := rfl
@[simp] theorem State.addCycles_p (n : Nat) : (s.addCycles n).p = s.p := rfl
@[simp] theorem State.addCycles_cycles (n : Nat) : (s.addCycles n).cycles = s.cycles + n := rfl
@[simp] theorem State.addCycles_waiting (n : Nat) : (s.addCycles n).waiting = s.waiting := rfl
@[simp] theorem State.addCycles_nmiPending (n : Nat) : (s.addCycles n).nmiPending = s.nmiPending := rfl
@[simp] theorem State.addCycles_irqLine (n : Nat) : (s.addCycles n).irqLine = s.irqLine := rfl
@[simp] theorem State.addCycles_stopped (n : Nat) : (s.addCycles n).stopped = s.stopped := rfl
@[simp] theorem State.addCycles_fault (n : Nat) : (s.addCycles n).fault = s.fault := rfl
@[simp] theorem State.addCycles_mem (n : Nat) : (s.addCycles n).mem = s.mem := rfl
@[simp] theorem State.read_addCycles (n : Nat) (k : Addr) : (s.addCycles n).read k = s.read k := rfl

@[simp] theorem State.write_cfg (a : Addr) (v : Byte) : (s.write a v).cfg = s.cfg := rfl
@[simp] theorem State.write_pc (a : Addr) (v : Byte) : (s.write a v).pc = s.pc := rfl
@[simp] theorem State.write_sp (a : Addr) (v : Byte) : (s.write a v).sp = s.sp := rfl
@[simp] theorem State.write_a (a : Addr) (v : Byte) : (s.write a v).a = s.a := rfl
@[simp] theorem State.write_x (a : Addr) (v : Byte) : (s.write a v).x = s.x := rfl
@[simp] theorem State.write_y (a : Addr) (v : Byte) : (s.write a v).y = s.y := rfl
@[simp] theorem State.write_p (a : Addr) (v : Byte) : (s.write a v).p = s.p := rfl
@[simp] theorem State.write_cycles (a : Addr) (v : Byte) : (s.write a v).cycles = s.cycles := rfl
@[simp] theorem State.write_waiting (a : Addr) (v : Byte) : (s.write a v).waiting = s.waiting := rfl
@[simp] theorem State.write_nmiPending (a : Addr) (v : Byte) : (s.write a v).nmiPending = s.nmiPending := rfl
@[simp] theorem State.write_irqLine (a : Addr) (v : Byte) : (s.write a v).irqLine = s.irqLine := rfl
@[simp] theorem State.write_stopped (a : Addr) (v : Byte) : (s.write a v).stopped = s.stopped := rfl
@[simp] theorem State.write_fault (a : Addr) (v : Byte) : (s.write a v).fault = s.fault := rfl
@[simp] theorem State.write_mem (a : Addr) (v : Byte) : (s.write a v).mem = s.mem.write a.toNat v := rfl

@[simp] theorem State.advance_cfg (op : Byte) (n : Nat) : (s.advance op n).cfg = s.cfg := rfl
@[simp] theorem State.advance_pc (op : Byte) (n : Nat) : (s.advance op n).pc = s.pc + BitVec.ofNat 16 n := rfl
@[simp] theorem State.advance_sp (op : Byte) (n : Nat) : (s.advance op n).sp = s.sp := rfl
@[simp] theorem State.advance_a (op : Byte) (n : Nat) : (s.advance op n).a = s.a := rfl
@[simp] theorem State.advance_x (op : Byte) (n : Nat) : (s.advance op n).x = s.x := rfl
@[simp] theorem State.advance_y (op : Byte) (n : Nat) : (s.advance op n).y = s.y := rfl
@[simp] theorem State.advance_p (op : Byte) (n : Nat) : (s.advance op n).p = s.p := rfl
@[simp] theorem State.advance_cycles (op : Byte) (n : Nat) : (s.advance op n).cycles = s.cycles + baseCycles s.cfg op := rfl
@[simp] theorem State.advance_waiting (op : Byte) (n : Nat) : (s.advance op n).waiting = s.waiting := rfl
@[simp] theorem State.advance_nmiPending (op : Byte) (n : Nat) : (s.advance op n).nmiPending = s.nmiPending := rfl
@[simp] theorem State.advance_irqLine (op : Byte) (n : Nat) : (s.advance op n).irqLine = s.irqLine := rfl
@[simp] theorem State.advance_stopped (op : Byte) (n : Nat) : (s.advance op n).stopped = s.stopped := rfl
@[simp] theorem State.advance_fault (op : Byte) (n : Nat) : (s.advance op n).fault = s.fault := rfl
@[simp] theorem State.advance_mem (op : Byte) (n : Nat) : (s.advance op n).mem = s.mem := rfl
@[simp] theorem State.read_advance (op : Byte) (n : Nat) (k : Addr) : (s.advance op n).read k = s.read k := rfl

@[simp] theorem State.push_cfg (v : Byte) : (s.push v).cfg = s.cfg := rfl
@[simp] theorem State.push_pc (v : Byte) : (s.push v).pc = s.pc := rfl
@[simp] theorem State.push_sp (v : Byte) : (s.push v).sp = s.sp - 1 := rfl
@[simp] theorem State.push_a (v : Byte) : (s.push v).a = s.a := rfl
@[simp] theorem State.push_x (v : Byte) : (s.push v).x = s.x := rfl
@[simp] theorem State.push_y (v : Byte) : (s.push v).y = s.y := rfl
@[simp] theorem State.push_p (v : Byte) : (s.push v).p = s.p := rfl
@[simp] theorem State.push_cycles (v : Byte) : (s.push v).cycles = s.cycles := rfl
@[simp] theorem State.push_waiting (v : Byte) : (s.push v).waiting = s.waiting := rfl
@[simp] theorem State.push_nmiPending (v : Byte) : (s.push v).nmiPending = s.nmiPending := rfl
@[simp] theorem State.push_irqLine (v : Byte) : (s.push v).irqLine = s.irqLine := rfl
@[simp] theorem State.push_stopped (v : Byte) : (s.push v).stopped = s.stopped := rfl
@[simp] theorem State.push_fault (v : Byte) : (s.push v).fault = s.fault := rfl
@[simp] theorem State.push_mem (v : Byte) : (s.push v).mem = s.mem.write (stackCell s.sp).toNat v := rfl

@[simp] theorem State.pushWord_cfg (w : Addr) : (s.pushWord w).cfg = s.cfg := rfl
@[simp] theorem State.pushWord_pc (w : Addr) : (s.pushWord w).pc = s.pc := rfl
@[simp] theorem State.pushWord_sp (w : Addr) : (s.pushWord w).sp = s.sp - 1 - 1 := rfl
@[simp] theorem State.pushWord_a (w : Addr) : (s.pushWord w).a = s.a := rfl
@[simp] theorem State.pushWord_x (w : Addr) : (s.pushWord w).x = s.x := rfl
@[simp] theorem State.pushWord_y (w : Addr) : (s.pushWord w).y = s.y := rfl
@[simp] theorem State.pushWord_p (w : Addr) : (s.pushWord w).p = s.p := rfl
@[simp] theorem State.pushWord_cycles (w : Addr) : (s.pushWord w).cycles = s.cycles := rfl
@[simp] theorem State.pushWord_waiting (w : Addr) : (s.pushWord w).waiting = s.waiting := rfl
@[simp] theorem State.pushWord_nmiPending (w : Addr) : (s.pushWord w).nmiPending = s.nmiPending := rfl
@[simp] theorem State.pushWord_irqLine (w : Addr) : (s.pushWord w).irqLine = s.irqLine := rfl
@[simp] theorem State.pushWord_stopped (w : Addr) : (s.pushWord w).stopped = s.stopped := rfl
@[simp] theorem State.pushWord_fault (w : Addr) : (s.pushWord w).fault = s.fault := rfl
@[simp] theorem State.pushWord_mem (w : Addr) : (s.pushWord w).mem = (s.mem.write (stackCell s.sp).toNat (hiByte w)).write (stackCell (s.sp - 1)).toNat (loByte w) := rfl

@[simp] theorem State.dropByte_cfg : (s.dropByte).cfg = s.cfg := rfl
@[simp] theorem State.dropByte_pc : (s.dropByte).pc = s.pc := rfl
@[simp] theorem State.dropByte_sp : (s.dropByte).sp = s.sp + 1 := rfl
@[simp] theorem State.dropByte_a : (s.dropByte).a = s.a := rfl
@[simp] theorem State.dropByte_x : (s.dropByte).x = s.x := rfl
@[simp] theorem State.dropByte_y : (s.dropByte).y = s.y := rfl
@[simp] theorem State.dropByte_p : (s.dropByte).p = s.p := rfl
@[simp] theorem State.dropByte_cycles : (s.dropByte).cycles = s.cycles := rfl
@[simp] theorem State.dropByte_waiting : (s.dropByte).waiting = s.waiting := rfl
@[simp] theorem State.dropByte_nmiPending : (s.dropByte).nmiPending = s.nmiPending := rfl
@[simp] theorem State.dropByte_irqLine : (s.dropByte).irqLine = s.irqLine := rfl
@[simp] theorem State.dropByte_stopped : (s.dropByte).stopped = s.stopped := rfl
@[simp] theorem State.dropByte_fault : (s.dropByte).fault = s.fault := rfl
@[simp] theorem State.dropByte_mem : (s.dropByte).mem = s.mem := rfl
@[simp] theorem State.read_dropByte (k : Addr) : (s.dropByte).read k = s.read k := rfl

@[simp] theorem State.dropWord_cfg : (s.dropWord).cfg = s.cfg := rfl
@[simp] theorem State.dropWord_pc : (s.dropWord).pc = s.pc := rfl
@[simp] theorem State.dropWord_sp : (s.dropWord).sp = s.sp + 1 + 1 := rfl
@[simp] theorem State.dropWord_a : (s.dropWord).a = s.a := rfl
@[simp] theorem State.dropWord_x : (s.dropWord).x = s.x := rfl
@[simp] theorem State.dropWord_y : (s.dropWord).y = s.y := rfl
@[simp] theorem State.dropWord_p : (s.dropWord).p = s.p := rfl
@[simp] theorem State.dropWord_cycles : (s.dropWord).cycles = s.cycles := rfl
@[simp] theorem State.dropWord_waiting : (s.dropWord).waiting = s.waiting := rfl
@[simp] theorem State.dropWord_nmiPending : (s.dropWord).nmiPending = s.nmiPending := rfl
@[simp] theorem State.dropWord_irqLine : (s.dropWord).irqLine = s.irqLine := rfl
@[simp] theorem State.dropWord_stopped : (s.dropWord).stopped = s.stopped := rfl
@[simp] theorem State.dropWord_fault : (s.dropWord).fault = s.fault := rfl
@[simp] theorem State.dropWord_mem : (s.dropWord).mem = s.mem := rfl
@[simp] theorem State.read_dropWord (k : Addr) : (s.dropWord).read k = s.read k := rfl

@[simp] theorem State.advanceOver_cfg (op : Byte) (o : Operand) : (s.advanceOver op o).cfg = s.cfg := rfl
@[simp] theorem State.advanceOver_pc (op : Byte) (o : Operand) : (s.advanceOver op o).pc = s.pc + BitVec.ofNat 16 o.mode.length := rfl
@[simp] theorem State.advanceOver_sp (op : Byte) (o : Operand) : (s.advanceOver op o).sp = s.sp := rfl
@[simp] theorem State.advanceOver_a (op : Byte) (o : Operand) : (s.advanceOver op o).a = s.a := rfl
@[simp] theorem State.advanceOver_x (op : Byte) (o : Operand) : (s.advanceOver op o).x = s.x := rfl
@[simp] theorem State.advanceOver_y (op : Byte) (o : Operand) : (s.advanceOver op o).y = s.y := rfl
@[simp] theorem State.advanceOver_p (op : Byte) (o : Operand) : (s.advanceOver op o).p = s.p := rfl
@[simp] theorem State.advanceOver_cycles (op : Byte) (o : Operand) : (s.advanceOver op o).cycles = s.cycles + baseCycles s.cfg op + o.penalty op s := rfl
@[simp] theorem State.advanceOver_waiting (op : Byte) (o : Operand) : (s.advanceOver op o).waiting = s.waiting := rfl
@[simp] theorem State.advanceOver_nmiPending (op : Byte) (o : Operand) : (s.advanceOver op o).nmiPending = s.nmiPending := rfl
@[simp] theorem State.advanceOver_irqLine (op : Byte) (o : Operand) : (s.advanceOver op o).irqLine = s.irqLine := rfl
@[simp] theorem State.advanceOver_stopped (op : Byte) (o : Operand) : (s.advanceOver op o).stopped = s.stopped := rfl
@[simp] theorem State.advanceOver_fault (op : Byte) (o : Operand) : (s.advanceOver op o).fault = s.fault := rfl
@[simp] theorem State.advanceOver_mem (op : Byte) (o : Operand) : (s.advanceOver op o).mem = s.mem := rfl
@[simp] theorem State.read_advanceOver (op : Byte) (o : Operand) (k : Addr) : (s.advanceOver op o).read k = s.read k := rfl

@[simp] theorem State.takeException_cfg (vec : Addr) (q : Byte) (b : Bool) : (s.takeException vec q b).cfg = s.cfg := by
  simp [State.takeException]
theorem State.takeException_pc (vec : Addr) (q : Byte) (b : Bool) : (s.takeException vec q b).pc = (s.takeException vec q b).read16 vec := by
  simp only [State.takeException, State.setPC_pc, State.read16, State.read_setPC]
@[simp] theorem State.takeException_sp (vec : Addr) (q : Byte) (b : Bool) : (s.takeException vec q b).sp = s.sp - 1 - 1 - 1 := by
  simp [State.takeException]
@[simp] theorem State.takeException_a (vec : Addr) (q : Byte) (b : Bool) : (s.takeException vec q b).a = s.a := by
  simp [State.takeException]
@[simp] theorem State.takeException_x (vec : Addr) (q : Byte) (b : Bool) : (s.takeException vec q b).x = s.x := by
  simp [State.takeException]
@[simp] theorem State.takeException_y (vec : Addr) (q : Byte) (b : Bool) : (s.takeException vec q b).y = s.y := by
  simp [State.takeException]
@[simp] theorem State.takeException_p (vec : Addr) (q : Byte) (b : Bool) : (s.takeException vec q b).p = { s.p with i := true, b := b, d := s.p.d && s.cfg.variant == .nmos } := by
  simp [State.takeException]
@[simp] theorem State.takeException_cycles (vec : Addr) (q : Byte) (b : Bool) : (s.takeException vec q b).cycles = s.cycles := by
  simp [State.takeException]
@[simp] theorem State.takeException_waiting (vec : Addr) (q : Byte) (b : Bool) : (s.takeException vec q b).waiting = s.waiting := by
  simp [State.takeException]
@[simp] theorem State.takeException_nmiPending (vec : Addr) (q : Byte) (b : Bool) : (s.takeException vec q b).nmiPending = s.nmiPending := by
  simp [State.takeException]
@[simp] theorem State.takeException_irqLine (vec : Addr) (q : Byte) (b : Bool) : (s.takeException vec q b).irqLine = s.irqLine := by
  simp [State.takeException]
@[simp] theorem State.takeException_stopped (vec : Addr) (q : Byte) (b : Bool) : (s.takeException vec q b).stopped = s.stopped := by
  simp [State.takeException]
@[simp] theorem State.takeException_fault (vec : Addr) (q : Byte) (b : Bool) : (s.takeException vec q b).fault = s.fault := by
  simp [State.takeException]
@[simp] theorem State.takeException_mem (vec : Addr) (q : Byte) (b : Bool) : (s.takeException vec q b).mem = ((s.mem.write (stackCell s.sp).toNat (hiByte s.pc)).write (stackCell (s.sp - 1)).toNat (loByte s.pc)).write (stackCell (s.sp - 1 - 1)).toNat q := by
  simp [State.takeException]

@[simp] theorem State.returnFromException_cfg : (s.returnFromException).cfg = s.cfg := by
  simp [State.returnFromException]
@[simp] theorem State.returnFromException_pc : (s.returnFromException).pc = s.dropByte.popWord := by
  simp [State.returnFromException, State.popWord, State.popByte]
@[simp] theorem State.returnFromException_sp : (s.returnFromException).sp = s.sp + 1 + 1 + 1 := by
  simp [State.returnFromException]
@[simp] theorem State.returnFromException_a : (s.returnFromException).a = s.a := by
  simp [State.returnFromException]
@[simp] theorem State.returnFromException_x : (s.returnFromException).x = s.x := by
  simp [State.returnFromException]
@[simp] theorem State.returnFromException_y : (s.returnFromException).y = s.y := by
  simp [State.returnFromException]
@[simp] theorem State.returnFromException_p : (s.returnFromException).p = .pulled s.popByte := by
  simp [State.returnFromException]
@[simp] theorem State.returnFromException_cycles : (s.returnFromException).cycles = s.cycles := by
  simp [State.returnFromException]
@[simp] theorem State.returnFromException_waiting : (s.returnFromException).waiting = s.waiting := by
  simp [State.returnFromException]
@[simp] theorem State.returnFromException_nmiPending : (s.returnFromException).nmiPending = s.nmiPending := by
  simp [State.returnFromException]
@[simp] theorem State.returnFromException_irqLine : (s.returnFromException).irqLine = s.irqLine := by
  simp [State.returnFromException]
@[simp] theorem State.returnFromException_stopped : (s.returnFromException).stopped = s.stopped := by
  simp [State.returnFromException]
@[simp] theorem State.returnFromException_fault : (s.returnFromException).fault = s.fault := by
  simp [State.returnFromException]
@[simp] theorem State.returnFromException_mem : (s.returnFromException).mem = s.mem := by
  simp [State.returnFromException]
@[simp] theorem State.read_returnFromException (k : Addr) : (s.returnFromException).read k = s.read k := by
  simp [State.returnFromException]

@[simp] theorem State.wake_cfg : (s.wake).cfg = s.cfg := rfl
@[simp] theorem State.wake_pc : (s.wake).pc = s.pc := rfl
@[simp] theorem State.wake_sp : (s.wake).sp = s.sp := rfl
@[simp] theorem State.wake_a : (s.wake).a = s.a := rfl
@[simp] theorem State.wake_x : (s.wake).x = s.x := rfl
@[simp] theorem State.wake_y : (s.wake).y = s.y := rfl
@[simp] theorem State.wake_p : (s.wake).p = s.p := rfl
@[simp] theorem State.wake_cycles : (s.wake).cycles = s.cycles := rfl
@[simp] theorem State.wake_waiting : (s.wake).waiting = false := rfl
@[simp] theorem State.wake_nmiPending : (s.wake).nmiPending = s.nmiPending := rfl
@[simp] theorem State.wake_irqLine : (s.wake).irqLine = s.irqLine := rfl
@[simp] theorem State.wake_stopped : (s.wake).stopped = s.stopped := rfl
@[simp] theorem State.wake_fault : (s.wake).fault = s.fault := rfl
@[simp] theorem State.wake_mem : (s.wake).mem = s.mem := rfl
@[simp] theorem State.read_wake (k : Addr) : (s.wake).read k = s.read k := rfl

@[simp] theorem State.setReg_a (v : Byte) : s.setReg .a v = { s with a := v } := rfl
@[simp] theorem State.setReg_x (v : Byte) : s.setReg .x v = { s with x := v } := rfl
@[simp] theorem State.setReg_y (v : Byte) : s.setReg .y v = { s with y := v } := rfl
@[simp] theorem State.reg_a : s.reg .a = s.a := rfl
@[simp] theorem State.reg_x : s.reg .x = s.x := rfl
@[simp] theorem State.reg_y : s.reg .y = s.y := rfl

@[simp] theorem State.setReg_cfg (r : Reg) (v : Byte) : (s.setReg r v).cfg = s.cfg := by cases r <;> rfl
@[simp] theorem State.setReg_pc (r : Reg) (v : Byte) : (s.setReg r v).pc = s.pc := by cases r <;> rfl
@[simp] theorem State.setReg_sp (r : Reg) (v : Byte) : (s.setReg r v).sp = s.sp := by cases r <;> rfl
@[simp] theorem State.setReg_p (r : Reg) (v : Byte) : (s.setReg r v).p = s.p := by cases r <;> rfl
@[simp] theorem State.setReg_cycles (r : Reg) (v : Byte) : (s.setReg r v).cycles = s.cycles := by cases r <;> rfl
@[simp] theorem State.setReg_waiting (r : Reg) (v : Byte) : (s.setReg r v).waiting = s.waiting := by cases r <;> rfl
@[simp] theorem State.setReg_nmiPending (r : Reg) (v : Byte) : (s.setReg r v).nmiPending = s.nmiPending := by cases r <;> rfl
@[simp] theorem State.setReg_irqLine (r : Reg) (v : Byte) : (s.setReg r v).irqLine = s.irqLine := by cases r <;> rfl
@[simp] theorem State.setReg_stopped (r : Reg) (v : Byte) : (s.setReg r v).stopped = s.stopped := by cases r <;> rfl
@[simp] theorem State.setReg_fault (r : Reg) (v : Byte) : (s.setReg r v).fault = s.fault := by cases r <;> rfl
@[simp] theorem State.setReg_mem (r : Reg) (v : Byte) : (s.setReg r v).mem = s.mem := by cases r <;> rfl

@[simp] theorem State.read_setReg (r : Reg) (v : Byte) (k : Addr) : (s.setReg r v).read k = s.read k := by
  cases r <;> rfl

end Sys2Proof.Machine
end

