-- ==== Sys2Proof/Laws/Memory.lean ====
section
/-! SUPPORT. The laws of memory: a read after a write (for every memory, canonical or not), and that every memory
operation, the reset memory and every push keep the canonical form. -/

namespace Sys2Proof.Machine

theorem Memory.read_erase_self (m : Memory) (a : Nat) : (m.erase a).read a = Memory.unlisted := by
  induction m with
  | nil => rfl
  | cons c m ih =>
    obtain ⟨k, v⟩ := c
    by_cases h : k = a
    · simpa [Memory.erase, h] using ih
    · simpa [Memory.erase, Memory.read, h] using ih

theorem Memory.read_erase_of_ne (m : Memory) {a b : Nat} (hab : b ≠ a) : (m.erase a).read b = m.read b := by
  induction m with
  | nil => rfl
  | cons c m ih =>
    obtain ⟨k, v⟩ := c
    by_cases h : k = a
    · subst h
      simpa [Memory.erase, Memory.read, Ne.symm hab] using ih
    · simp only [Memory.erase] at ih
      simp [Memory.erase, Memory.read, h, ih]

theorem Memory.read_insert_self (m : Memory) (a : Nat) (v : Byte) (h : ∀ c ∈ m, c.1 ≠ a) :
    (m.insert a v).read a = v := by
  induction m with
  | nil => simp [Memory.insert, Memory.read]
  | cons c m ih =>
    obtain ⟨k, w⟩ := c
    have hk : k ≠ a := h (k, w) (by simp)
    have ih := ih fun c hc => h c (by simp [hc])
    by_cases hlt : a < k <;> simp [Memory.insert, Memory.read, hlt, hk, ih]

theorem Memory.read_insert_of_ne (m : Memory) {a b : Nat} (v : Byte) (hab : b ≠ a) :
    (m.insert a v).read b = m.read b := by
  induction m with
  | nil => simp [Memory.insert, Memory.read, Ne.symm hab]
  | cons c m ih =>
    obtain ⟨k, w⟩ := c
    by_cases hlt : a < k <;> simp [Memory.insert, Memory.read, hlt, Ne.symm hab, ih]

theorem Memory.ne_of_mem_erase {m : Memory} {a : Nat} {c : Host.Cell} (h : c ∈ m.erase a) : c.1 ≠ a := by
  simpa [Memory.erase] using (List.mem_filter.mp h).2

/-- A read of the address written gives the byte written. -/
@[simp] theorem Memory.read_write_self (m : Memory) (a : Nat) (v : Byte) : (m.write a v).read a = v := by
  unfold Memory.write
  split
  · next h => rw [Memory.read_erase_self, h]
  · exact Memory.read_insert_self _ _ _ fun _ hc => Memory.ne_of_mem_erase hc

/-- A write leaves every other address alone. -/
theorem Memory.read_write_of_ne (m : Memory) {a b : Nat} (v : Byte) (hab : b ≠ a) :
    (m.write a v).read b = m.read b := by
  unfold Memory.write
  split
  · exact Memory.read_erase_of_ne m hab
  · rw [Memory.read_insert_of_ne _ _ hab, Memory.read_erase_of_ne m hab]

@[simp] theorem State.read_write_self (s : State) (a : Addr) (v : Byte) : (s.write a v).read a = v :=
  Memory.read_write_self _ _ _

theorem State.read_write_of_ne (s : State) {a b : Addr} (v : Byte) (hab : b ≠ a) :
    (s.write a v).read b = s.read b :=
  Memory.read_write_of_ne _ _ fun h => hab (BitVec.eq_of_toNat_eq h)

/-! ### The canonical form -/

theorem Memory.wf_nil : Memory.wf [] := by decide

theorem Memory.wf_erase {m : Memory} (h : m.wf) (a : Nat) : (m.erase a).wf :=
  ⟨h.1.filter _, fun c hc => h.2 c (List.mem_filter.mp hc).1⟩

theorem Memory.mem_insert {m : Memory} {a : Nat} {v : Byte} {c : Host.Cell} (h : c ∈ m.insert a v) :
    c = (a, v) ∨ c ∈ m := by
  induction m with
  | nil => simpa [Memory.insert] using h
  | cons d m ih =>
    obtain ⟨k, w⟩ := d
    unfold Memory.insert at h
    split at h
    · simpa using h
    · rcases List.mem_cons.mp h with h | h
      · simp [h]
      · rcases ih h with h | h <;> simp [h]

theorem Memory.wf_insert {m : Memory} (h : m.wf) {a : Nat} (ha : a < 65536) {v : Byte} (hv : v ≠ Memory.unlisted)
    (hne : ∀ c ∈ m, c.1 ≠ a) : (m.insert a v).wf := by
  refine ⟨?_, fun c hc => ?_⟩
  · induction m with
    | nil => simp [Memory.insert]
    | cons d m ih =>
      obtain ⟨k, w⟩ := d
      have hp := List.pairwise_cons.mp h.1
      have hk : k ≠ a := hne (k, w) (by simp)
      unfold Memory.insert
      split
      · next hlt =>
        refine List.pairwise_cons.mpr ⟨fun c hc => ?_, h.1⟩
        rcases List.mem_cons.mp hc with hc | hc
        · simpa [hc] using hlt
        · exact Nat.lt_trans hlt (hp.1 c hc)
      · refine List.pairwise_cons.mpr
          ⟨fun c hc => ?_, ih ⟨hp.2, fun c hc => h.2 c (by simp [hc])⟩ fun c hc => hne c (by simp [hc])⟩
        rcases Memory.mem_insert hc with hc | hc
        · subst hc
          simp only
          omega
        · exact hp.1 c hc
  · rcases Memory.mem_insert hc with hc | hc
    · subst hc
      exact ⟨ha, hv⟩
    · exact h.2 c hc

/-- A write of a byte at an address of the space keeps the canonical form. -/
theorem Memory.wf_write {m : Memory} (h : m.wf) {a : Nat} (ha : a < 65536) (v : Byte) : (m.write a v).wf := by
  unfold Memory.write
  split
  · exact Memory.wf_erase h a
  · next hv => exact Memory.wf_insert (Memory.wf_erase h a) ha hv fun c hc => Memory.ne_of_mem_erase hc

/-- A store through the core's 16-bit address keeps the canonical form. -/
theorem Memory.wf_write_addr {m : Memory} (h : m.wf) (a : Addr) (v : Byte) : (m.write a.toNat v).wf :=
  Memory.wf_write h (by have := a.isLt; omega) v

theorem State.wf_write {s : State} (h : s.mem.wf) (a : Addr) (v : Byte) : (s.write a v).mem.wf :=
  Memory.wf_write_addr h a v

theorem State.wf_push {s : State} (h : s.mem.wf) (v : Byte) : (s.push v).mem.wf :=
  Memory.wf_write_addr h _ v

theorem State.wf_pushWord {s : State} (h : s.mem.wf) (w : Addr) : (s.pushWord w).mem.wf :=
  State.wf_push (State.wf_push h _) _

theorem State.wf_takeException {s : State} (h : s.mem.wf) (vec : Addr) (q : Byte) (b : Bool) :
    (s.takeException vec q b).mem.wf := by
  rw [State.takeException_mem]
  exact Memory.wf_write_addr (Memory.wf_write_addr (Memory.wf_write_addr h _ _) _ _) _ _

theorem State.wf_reset : State.reset.mem.wf := Memory.wf_nil

end Sys2Proof.Machine
end

