-- ==== Sys2Proof/Laws/Operations.lean ====
section
/-! SUPPORT. One lemma per shared operation that says once everything it does: the next state as one record over the
state it starts from, so that a proof about an instruction cites it and unfolds nothing below. Before them, the facts
about bytes, words and stack cells they rest on. -/

namespace Sys2Proof.Machine

/-! ### Words and stack cells -/

@[simp] theorem word_hiByte_loByte (w : Addr) : word (hiByte w) (loByte w) = w := by
  apply BitVec.eq_of_getLsbD_eq
  intro i hi
  simp only [word, hiByte, loByte, BitVec.getLsbD_append, BitVec.getLsbD_extractLsb']
  by_cases h : i < 8
  · simp [h]
  · have h1 : i - 8 < 8 := by omega
    have h2 : 8 + (i - 8) = i := by omega
    simp [h, h1, h2]

@[simp] theorem hiByte_word (hi lo : Byte) : hiByte (word hi lo) = hi := by
  apply BitVec.eq_of_getLsbD_eq
  intro i h
  simp only [word, hiByte, BitVec.getLsbD_extractLsb', BitVec.getLsbD_append]
  simp [h]

@[simp] theorem loByte_word (hi lo : Byte) : loByte (word hi lo) = lo := by
  apply BitVec.eq_of_getLsbD_eq
  intro i h
  simp only [word, loByte, BitVec.getLsbD_extractLsb', BitVec.getLsbD_append]
  simp [h]

theorem word_toNat (hi lo : Byte) : (word hi lo).toNat = lo.toNat + 256 * hi.toNat := by
  have hl := lo.isLt
  unfold word
  rw [BitVec.toNat_append, Nat.shiftLeft_eq, ← Nat.mul_comm (2 ^ 8), ← Nat.two_pow_add_eq_or_of_lt hl]
  omega

theorem hiByte_toNat (w : Addr) : (hiByte w).toNat = w.toNat / 256 := by
  have := w.isLt
  simp only [hiByte, BitVec.extractLsb'_toNat, Nat.shiftRight_eq_div_pow]
  omega

theorem loByte_toNat (w : Addr) : (loByte w).toNat = w.toNat % 256 := by
  simp only [loByte, BitVec.extractLsb'_toNat, Nat.shiftRight_eq_div_pow]
  omega

theorem zeroPage_toNat (z : Byte) : (zeroPage z).toNat = z.toNat := by
  have := z.isLt
  rw [zeroPage, BitVec.toNat_setWidth]
  omega

/-- Two addresses lie in different pages when their quotients by 256 differ. -/
theorem pageDiffers_eq (a b : Addr) : pageDiffers a b = !decide (a.toNat / 256 = b.toNat / 256) := by
  rw [pageDiffers, bne, ← hiByte_toNat, ← hiByte_toNat, ← Bool.not_inj_iff, Bool.not_not, Bool.not_not, Bool.eq_iff_iff,
    beq_iff_eq, decide_eq_true_eq, BitVec.toNat_inj]

theorem lowNibble_toNat : ∀ v : Byte, (v &&& 0x0F).toNat = v.toNat % 16 := by decide

theorem highNibble_toNat : ∀ v : Byte, (v &&& 0xF0).toNat = v.toNat / 16 * 16 := by decide

/-- Two stack cells are the same only for the same stack pointer value. -/
@[simp] theorem stackCell_inj {a b : Byte} : stackCell a = stackCell b ↔ a = b := by
  constructor
  · intro h
    simpa [stackCell] using congrArg loByte h
  · rintro rfl
    rfl

/-! ### Branches -/

/-- The common branch: PC and cycles only (R220). -/
theorem State.branch_eq (s : State) (cond : Bool) (off : Byte) :
    s.branch cond off = { s with
      pc := if cond then branchTarget s.pc off else s.pc
      cycles := s.cycles + if cond then (if pageDiffers (branchTarget s.pc off) s.pc then 2 else 1) else 0 } := by
  cases cond <;> rfl

/-! ### The instructions' shared meanings -/

section
variable (op : Byte) (o : Operand) (s : State)

theorem load_a_eq : load .a op o s = .next { s with
    a := o.value s
    p := s.p.nz (o.value s)
    pc := s.pc + BitVec.ofNat 16 o.mode.length
    cycles := s.cycles + baseCycles s.cfg op + o.penalty op s } := rfl

theorem load_x_eq : load .x op o s = .next { s with
    x := o.value s
    p := s.p.nz (o.value s)
    pc := s.pc + BitVec.ofNat 16 o.mode.length
    cycles := s.cycles + baseCycles s.cfg op + o.penalty op s } := rfl

theorem load_y_eq : load .y op o s = .next { s with
    y := o.value s
    p := s.p.nz (o.value s)
    pc := s.pc + BitVec.ofNat 16 o.mode.length
    cycles := s.cycles + baseCycles s.cfg op + o.penalty op s } := rfl

theorem store_eq (v : Byte) : store v op o s = .next { s with
    mem := s.mem.write (o.ea s).toNat v
    pc := s.pc + BitVec.ofNat 16 o.mode.length
    cycles := s.cycles + baseCycles s.cfg op + o.penalty op s } := rfl

theorem addSub_eq (alu : Config → Bool → Byte → Byte → Bool → AluResult) : addSub alu op o s = .next { s with
    a := (alu s.cfg s.p.d s.a (o.value s) s.p.c).r
    p := s.p.alu (alu s.cfg s.p.d s.a (o.value s) s.p.c)
    pc := s.pc + BitVec.ofNat 16 o.mode.length
    cycles := s.cycles + baseCycles s.cfg op + o.penalty op s } := rfl

theorem compareWith_eq (r : Reg) : compareWith r op o s = .next { s with
    p := s.p.compare (s.reg r) (o.value s)
    pc := s.pc + BitVec.ofNat 16 o.mode.length
    cycles := s.cycles + baseCycles s.cfg op + o.penalty op s } := rfl

theorem stepMem_eq (f : Byte → Byte) : stepMem f op o s = .next { s with
    mem := s.mem.write (o.ea s).toNat (f (o.value s))
    p := s.p.nz (f (o.value s))
    pc := s.pc + BitVec.ofNat 16 o.mode.length
    cycles := s.cycles + baseCycles s.cfg op + o.penalty op s } := rfl

theorem logic_eq (f : Byte → Byte → Byte) : logic f op o s = .next { s with
    a := f s.a (o.value s)
    p := s.p.nz (f s.a (o.value s))
    pc := s.pc + BitVec.ofNat 16 o.mode.length
    cycles := s.cycles + baseCycles s.cfg op + o.penalty op s } := rfl

theorem bitMemory_eq : bitMemory op o s = .next { s with
    p := s.p.bitTest s.a (o.value s)
    pc := s.pc + BitVec.ofNat 16 o.mode.length
    cycles := s.cycles + baseCycles s.cfg op + o.penalty op s } := rfl

theorem bitImmediate_eq (v : Byte) : bitImmediate op v s = .next { s with
    p := s.p.testZ s.a v
    pc := s.pc + 2
    cycles := s.cycles + baseCycles s.cfg op } := by
  simp [bitImmediate, State.advanceOver, Operand.penalty, Operand.crosses, State.addCycles, State.advance, State.setPC,
    State.setP, Operand.mode, Mode.length, Mode.operandBytes]

theorem shiftAcc_eq (f : Byte → Bool → Shifted) : shiftAcc f op s = .next { s with
    a := (f s.a s.p.c).r
    p := s.p.shifted (f s.a s.p.c)
    pc := s.pc + 1
    cycles := s.cycles + baseCycles s.cfg op } := rfl

theorem shiftMem_eq (f : Byte → Bool → Shifted) : shiftMem f op o s = .next { s with
    mem := s.mem.write (o.ea s).toNat (f (o.value s) s.p.c).r
    p := s.p.shifted (f (o.value s) s.p.c)
    pc := s.pc + BitVec.ofNat 16 o.mode.length
    cycles := s.cycles + baseCycles s.cfg op + o.penalty op s } := rfl

theorem testAndModify_eq (f : Byte → Byte → Byte) : testAndModify f op o s = .next { s with
    mem := s.mem.write (o.ea s).toNat (f (o.value s) s.a)
    p := s.p.testZ s.a (o.value s)
    pc := s.pc + BitVec.ofNat 16 o.mode.length
    cycles := s.cycles + baseCycles s.cfg op + o.penalty op s } := rfl

theorem modifyBit_eq (f : Byte → Byte) (z : Byte) : modifyBit f op z s = .next { s with
    mem := s.mem.write (zeroPage z).toNat (f (s.read (zeroPage z)))
    pc := s.pc + 2
    cycles := s.cycles + baseCycles s.cfg op } := by
  simp [modifyBit, State.advanceOver, Operand.penalty, Operand.crosses, State.addCycles, State.advance, State.setPC,
    State.write, Operand.mode, Mode.length, Mode.operandBytes]

theorem branchIf_eq (cond : Bool) (off : Byte) : branchIf cond op off s = .next { s with
    pc := if cond then branchTarget (s.pc + 2) off else s.pc + 2
    cycles := s.cycles + baseCycles s.cfg op +
      if cond then (if pageDiffers (branchTarget (s.pc + 2) off) (s.pc + 2) then 2 else 1) else 0 } := by
  rw [branchIf, State.branch_eq]
  rfl

theorem branchOnBit_eq (n : Nat) (want : Bool) (z off : Byte) : branchOnBit n want op z off s = .next { s with
    pc := if (s.read (zeroPage z)).getLsbD n == want then branchTarget (s.pc + 3) off else s.pc + 3
    cycles := s.cycles + baseCycles s.cfg op +
      if (s.read (zeroPage z)).getLsbD n == want then
        (if pageDiffers (branchTarget (s.pc + 3) off) (s.pc + 3) then 2 else 1) else 0 } := by
  rw [branchOnBit, State.branch_eq]
  rfl

theorem pushByte_eq (v : Byte) : pushByte v op s = .next { s with
    mem := s.mem.write (stackCell s.sp).toNat v
    sp := s.sp - 1
    pc := s.pc + 1
    cycles := s.cycles + baseCycles s.cfg op } := rfl

theorem withStatus_eq (p : Status) : withStatus p op s = .next { s with
    p := p
    pc := s.pc + 1
    cycles := s.cycles + baseCycles s.cfg op } := rfl

theorem noOperation_eq (len : Nat) : noOperation op len s = .next { s with
    pc := s.pc + BitVec.ofNat 16 len
    cycles := s.cycles + baseCycles s.cfg op } := rfl

/-- The pulls of a register (R244, R246, R247). -/
theorem pullReg_eq (r : Reg) : pullReg r op s = .next
    ((({ s with sp := s.sp + 1, pc := s.pc + 1, cycles := s.cycles + baseCycles s.cfg op } : State).setReg r
      (s.read (stackCell (s.sp + 1)))).setNZ (s.read (stackCell (s.sp + 1)))) := rfl

theorem stepReg_eq (r : Reg) (v : Byte) : stepReg r v op s = .next
    ((({ s with pc := s.pc + 1, cycles := s.cycles + baseCycles s.cfg op } : State).setReg r v).setNZ v) := rfl

theorem transfer_eq (v : Byte) (r : Reg) : transfer v r op s = .next
    ((({ s with pc := s.pc + 1, cycles := s.cycles + baseCycles s.cfg op } : State).setReg r v).setNZ v) := rfl

theorem jump_eq (target : Addr) : jump target op s = .next { s with
    pc := target
    cycles := s.cycles + baseCycles s.cfg op } := rfl

end

/-! ### The stack and exceptions -/

/-- P as PLP and RTI restore it (R245, R261). -/
theorem Status.pulled_eq : ∀ v : Byte, Status.pulled v = { n := v.getLsbD 7
                                                           v := v.getLsbD 6
                                                           b := true
                                                           d := v.getLsbD 3
                                                           i := v.getLsbD 2
                                                           z := v.getLsbD 1
                                                           c := v.getLsbD 0 } := by decide

theorem sub_one_ne (x : Byte) : x - 1 ≠ x := by bv_omega

theorem sub_two_ne (x : Byte) : x - 2 ≠ x := by bv_omega

theorem sub_two_ne_sub_one (x : Byte) : x - 2 ≠ x - 1 := by bv_omega

/-- The bytes a pushed word leaves (R62). -/
theorem State.read_pushWord (s : State) (w : Addr) :
    (s.pushWord w).read (stackCell s.sp) = hiByte w ∧ (s.pushWord w).read (stackCell (s.sp - 1)) = loByte w ∧
      ∀ a, a ≠ stackCell s.sp → a ≠ stackCell (s.sp - 1) → (s.pushWord w).read a = s.read a := by
  refine ⟨?_, State.read_write_self _ _ _, fun a h1 h2 => ?_⟩
  · refine (State.read_write_of_ne _ _ ?_).trans (State.read_write_self _ _ _)
    rw [ne_eq, stackCell_inj]
    exact fun h => sub_one_ne _ h.symm
  · exact (State.read_write_of_ne _ _ h2).trans (State.read_write_of_ne _ _ h1)

/-- The bytes an exception entry leaves (R260, R313). -/
theorem State.read_takeException (s : State) (vector : Addr) (q : Byte) (b : Bool) :
    (s.takeException vector q b).read (stackCell s.sp) = hiByte s.pc ∧
      (s.takeException vector q b).read (stackCell (s.sp - 1)) = loByte s.pc ∧
      (s.takeException vector q b).read (stackCell (s.sp - 2)) = q ∧
      ∀ a, a ≠ stackCell s.sp → a ≠ stackCell (s.sp - 1) → a ≠ stackCell (s.sp - 2) →
        (s.takeException vector q b).read a = s.read a := by
  have hsub : s.sp - 1 - 1 = s.sp - 2 := by bv_omega
  have hread : ∀ a, (s.takeException vector q b).read a = ((s.pushWord s.pc).write (stackCell (s.sp - 2)) q).read a := by
    intro a
    rw [State.read, State.takeException_mem, hsub]
    rfl
  obtain ⟨hhi, hlo, hrest⟩ := s.read_pushWord s.pc
  simp only [hread]
  refine ⟨?_, ?_, State.read_write_self _ _ _, fun a h1 h2 h3 => ?_⟩
  · rw [State.read_write_of_ne, hhi]
    rw [ne_eq, stackCell_inj]
    exact fun h => sub_two_ne _ h.symm
  · rw [State.read_write_of_ne, hlo]
    rw [ne_eq, stackCell_inj]
    exact fun h => sub_two_ne_sub_one _ h.symm
  · rw [State.read_write_of_ne _ _ h3, hrest a h1 h2]

/-- Everything else an exception entry does (R260, R313). -/
theorem State.takeException_eq (s : State) (vector : Addr) (q : Byte) (b : Bool) :
    s.takeException vector q b = { s with
      mem := (s.takeException vector q b).mem
      sp := s.sp - 1 - 1 - 1
      p := { s.p with i := true, b := b, d := s.p.d && s.cfg.variant == .nmos }
      pc := (s.takeException vector q b).read16 vector } := by
  have hcfg := s.takeException_cfg vector q b
  have hpc := s.takeException_pc vector q b
  have hsp := s.takeException_sp vector q b
  have ha := s.takeException_a vector q b
  have hx := s.takeException_x vector q b
  have hy := s.takeException_y vector q b
  have hp := s.takeException_p vector q b
  have hcyc := s.takeException_cycles vector q b
  have hw := s.takeException_waiting vector q b
  have hn := s.takeException_nmiPending vector q b
  have hi := s.takeException_irqLine vector q b
  have hst := s.takeException_stopped vector q b
  have hf := s.takeException_fault vector q b
  generalize s.takeException vector q b = t at *
  cases t
  simp only at *
  subst hcfg hsp ha hx hy hp hcyc hw hn hi hst hf
  simp only [State.mk.injEq, true_and, and_true]
  exact hpc

/-- Returning from an exception (R261, R320). -/
theorem State.returnFromException_eq (s : State) : s.returnFromException = { s with
    p := .pulled (s.read (stackCell (s.sp + 1)))
    sp := s.sp + 1 + 1 + 1
    pc := word (s.read (stackCell (s.sp + 1 + 1 + 1))) (s.read (stackCell (s.sp + 1 + 1))) } := rfl

end Sys2Proof.Machine
end

