-- ==== Sys2Proof/Laws/Step.lean ====
section
/-! SUPPORT. Everything a step can do, said once: which of the five cases a step is, with the state it leaves
(30_encoding.md R87, 60_exceptions.md R315). -/

namespace Sys2Proof.Machine

/-- The five cases of a step that answers `t`: stuck, a wait cycle, an interrupt entry, an instruction, an illegal
opcode. -/
theorem step_cases {s t : State} (h : step s = .next t) :
    (s.turn = .stuck ∧ s.stuck = true ∧ t = s) ∨
    (s.turn = .waitCycle ∧ s.stuck = false ∧ s.waiting = true ∧ s.requested = false ∧ t = s.addCycles 1) ∨
    (∃ k, s.turn = .interrupt k s.wake ∧ s.stuck = false ∧ t = s.wake.interruptEntry k) ∨
    (∃ i, s.turn = .instruction s.wake ∧ s.stuck = false ∧ s.wake.fetch = .ok i ∧ exec i s.wake = .next t) ∨
    (∃ e, s.turn = .instruction s.wake ∧ s.stuck = false ∧ s.wake.fetch = .error e ∧ t = s.wake.illegalOpcode) := by
  have ht : s.turn = s.turn := rfl
  conv at ht => rhs; unfold State.turn
  unfold step at h
  by_cases hs : s.stuck = true
  · rw [if_pos hs] at ht
    rw [ht] at h
    exact .inl ⟨ht, hs, by simpa using h.symm⟩
  have hs' : s.stuck = false := by simpa using hs
  rw [if_neg hs] at ht
  by_cases hw : (s.waiting && !s.requested) = true
  · rw [if_pos hw] at ht
    rw [ht] at h
    have hw' : s.waiting = true ∧ s.requested = false := by simpa using hw
    exact .inr (.inl ⟨ht, hs', hw'.1, hw'.2, by simpa using h.symm⟩)
  rw [if_neg hw] at ht
  by_cases hn : s.nmiPending = true
  · rw [if_pos hn] at ht
    rw [ht] at h
    exact .inr (.inr (.inl ⟨.nmi, ht, hs', by simpa using h.symm⟩))
  rw [if_neg hn] at ht
  by_cases hi : (s.irqLine && !s.p.i) = true
  · rw [if_pos hi] at ht
    rw [ht] at h
    exact .inr (.inr (.inl ⟨.irq, ht, hs', by simpa using h.symm⟩))
  rw [if_neg hi] at ht
  rw [ht] at h
  cases hf : s.wake.fetch with
  | ok i =>
    simp only [hf] at h
    exact .inr (.inr (.inr (.inl ⟨i, ht, hs', rfl, h⟩)))
  | error e =>
    simp only [hf] at h
    exact .inr (.inr (.inr (.inr ⟨e, ht, hs', rfl, by simpa using h.symm⟩)))

end Sys2Proof.Machine
end

