-- ==== Sys2Proof/Laws/Claims.lean ====
section
/-! SUPPORT. How to show that an instruction is a row of the opcode table, and that a flag N is bit 7. -/

namespace Sys2Proof.Machine

/-- `EncodedAs` from one equation that `rfl` closes for a concrete opcode byte (unfold `Form.encoded` and reduce the
form's fields first). -/
theorem encodedAs_of {mn : String} {op : Byte} {m : Mode} {av : Availability} {i : Instr} (hop : i.opcode = op)
    (hrow : (tableEntry op).map (fun d => (d.mnemonic, d.mode, d.avail)) = some (mn, m, av)) :
    EncodedAs mn op m av i := by
  obtain ⟨d, hd, heq⟩ := Option.map_eq_some_iff.mp hrow
  cases heq
  exact ⟨hop, d, hd, rfl, rfl, rfl⟩

theorem msb_eq_bit7 (v : Byte) : v.msb = v.getLsbD 7 := by
  simp [BitVec.msb_eq_getLsbD_last]

end Sys2Proof.Machine
end

