-- ==== Sys2Proof/Laws/PerInstr.lean ====
section
/-! SUPPORT. The per-instruction family Length: an instruction is encoded in as many bytes as the mode of its row of the
opcode table takes, the opcode byte first (30_encoding.md R80, R82). -/

namespace Sys2Proof.Laws.Length

/-- The encoding of `i` begins with its opcode byte, and its length is that of the mode of the opcode's row. -/
def Statement (i : Instr) : Prop :=
  (encode i).head? = some i.opcode ∧ (tableEntry i.opcode).map (fun d => d.mode.length) = some (encode i).length

theorem of_row {i : Instr} (op : Byte) (hop : i.opcode = op)
    (hrow : (tableEntry op).map (fun d => d.mode.length) = some (encode i).length) : Statement i :=
  ⟨rfl, hop ▸ hrow⟩

theorem brk : Statement (.brk) := of_row 0x00 rfl rfl
theorem oraIndx (z : Byte) : Statement (.oraIndx z) := of_row 0x01 rfl rfl
theorem nop02 (v : Byte) : Statement (.nop02 v) := of_row 0x02 rfl rfl
theorem nop03 : Statement (.nop03) := of_row 0x03 rfl rfl
theorem tsbZpg (z : Byte) : Statement (.tsbZpg z) := of_row 0x04 rfl rfl
theorem oraZpg (z : Byte) : Statement (.oraZpg z) := of_row 0x05 rfl rfl
theorem aslZpg (z : Byte) : Statement (.aslZpg z) := of_row 0x06 rfl rfl
theorem rmb0 (z : Byte) : Statement (.rmb0 z) := of_row 0x07 rfl rfl
theorem php : Statement (.php) := of_row 0x08 rfl rfl
theorem oraImm (v : Byte) : Statement (.oraImm v) := of_row 0x09 rfl rfl
theorem aslAcc : Statement (.aslAcc) := of_row 0x0A rfl rfl
theorem nop0B : Statement (.nop0B) := of_row 0x0B rfl rfl
theorem tsbAbs (w : Addr) : Statement (.tsbAbs w) := of_row 0x0C rfl rfl
theorem oraAbs (w : Addr) : Statement (.oraAbs w) := of_row 0x0D rfl rfl
theorem aslAbs (w : Addr) : Statement (.aslAbs w) := of_row 0x0E rfl rfl
theorem bbr0 (z : Byte) (off : Byte) : Statement (.bbr0 z off) := of_row 0x0F rfl rfl
theorem bpl (off : Byte) : Statement (.bpl off) := of_row 0x10 rfl rfl
theorem oraIndy (z : Byte) : Statement (.oraIndy z) := of_row 0x11 rfl rfl
theorem oraZpi (z : Byte) : Statement (.oraZpi z) := of_row 0x12 rfl rfl
theorem nop13 : Statement (.nop13) := of_row 0x13 rfl rfl
theorem trbZpg (z : Byte) : Statement (.trbZpg z) := of_row 0x14 rfl rfl
theorem oraZpx (z : Byte) : Statement (.oraZpx z) := of_row 0x15 rfl rfl
theorem aslZpx (z : Byte) : Statement (.aslZpx z) := of_row 0x16 rfl rfl
theorem rmb1 (z : Byte) : Statement (.rmb1 z) := of_row 0x17 rfl rfl
theorem clc : Statement (.clc) := of_row 0x18 rfl rfl
theorem oraAbsy (w : Addr) : Statement (.oraAbsy w) := of_row 0x19 rfl rfl
theorem incAcc : Statement (.incAcc) := of_row 0x1A rfl rfl
theorem nop1B : Statement (.nop1B) := of_row 0x1B rfl rfl
theorem trbAbs (w : Addr) : Statement (.trbAbs w) := of_row 0x1C rfl rfl
theorem oraAbsx (w : Addr) : Statement (.oraAbsx w) := of_row 0x1D rfl rfl
theorem aslAbsx (w : Addr) : Statement (.aslAbsx w) := of_row 0x1E rfl rfl
theorem bbr1 (z : Byte) (off : Byte) : Statement (.bbr1 z off) := of_row 0x1F rfl rfl
theorem jsr (w : Addr) : Statement (.jsr w) := of_row 0x20 rfl rfl
theorem andIndx (z : Byte) : Statement (.andIndx z) := of_row 0x21 rfl rfl
theorem nop22 (v : Byte) : Statement (.nop22 v) := of_row 0x22 rfl rfl
theorem nop23 : Statement (.nop23) := of_row 0x23 rfl rfl
theorem bitZpg (z : Byte) : Statement (.bitZpg z) := of_row 0x24 rfl rfl
theorem andZpg (z : Byte) : Statement (.andZpg z) := of_row 0x25 rfl rfl
theorem rolZpg (z : Byte) : Statement (.rolZpg z) := of_row 0x26 rfl rfl
theorem rmb2 (z : Byte) : Statement (.rmb2 z) := of_row 0x27 rfl rfl
theorem plp : Statement (.plp) := of_row 0x28 rfl rfl
theorem andImm (v : Byte) : Statement (.andImm v) := of_row 0x29 rfl rfl
theorem rolAcc : Statement (.rolAcc) := of_row 0x2A rfl rfl
theorem nop2B : Statement (.nop2B) := of_row 0x2B rfl rfl
theorem bitAbs (w : Addr) : Statement (.bitAbs w) := of_row 0x2C rfl rfl
theorem andAbs (w : Addr) : Statement (.andAbs w) := of_row 0x2D rfl rfl
theorem rolAbs (w : Addr) : Statement (.rolAbs w) := of_row 0x2E rfl rfl
theorem bbr2 (z : Byte) (off : Byte) : Statement (.bbr2 z off) := of_row 0x2F rfl rfl
theorem bmi (off : Byte) : Statement (.bmi off) := of_row 0x30 rfl rfl
theorem andIndy (z : Byte) : Statement (.andIndy z) := of_row 0x31 rfl rfl
theorem andZpi (z : Byte) : Statement (.andZpi z) := of_row 0x32 rfl rfl
theorem nop33 : Statement (.nop33) := of_row 0x33 rfl rfl
theorem bitZpx (z : Byte) : Statement (.bitZpx z) := of_row 0x34 rfl rfl
theorem andZpx (z : Byte) : Statement (.andZpx z) := of_row 0x35 rfl rfl
theorem rolZpx (z : Byte) : Statement (.rolZpx z) := of_row 0x36 rfl rfl
theorem rmb3 (z : Byte) : Statement (.rmb3 z) := of_row 0x37 rfl rfl
theorem sec : Statement (.sec) := of_row 0x38 rfl rfl
theorem andAbsy (w : Addr) : Statement (.andAbsy w) := of_row 0x39 rfl rfl
theorem decAcc : Statement (.decAcc) := of_row 0x3A rfl rfl
theorem nop3B : Statement (.nop3B) := of_row 0x3B rfl rfl
theorem bitAbsx (w : Addr) : Statement (.bitAbsx w) := of_row 0x3C rfl rfl
theorem andAbsx (w : Addr) : Statement (.andAbsx w) := of_row 0x3D rfl rfl
theorem rolAbsx (w : Addr) : Statement (.rolAbsx w) := of_row 0x3E rfl rfl
theorem bbr3 (z : Byte) (off : Byte) : Statement (.bbr3 z off) := of_row 0x3F rfl rfl
theorem rti : Statement (.rti) := of_row 0x40 rfl rfl
theorem eorIndx (z : Byte) : Statement (.eorIndx z) := of_row 0x41 rfl rfl
theorem nop42 (v : Byte) : Statement (.nop42 v) := of_row 0x42 rfl rfl
theorem nop43 : Statement (.nop43) := of_row 0x43 rfl rfl
theorem nop44 (z : Byte) : Statement (.nop44 z) := of_row 0x44 rfl rfl
theorem eorZpg (z : Byte) : Statement (.eorZpg z) := of_row 0x45 rfl rfl
theorem lsrZpg (z : Byte) : Statement (.lsrZpg z) := of_row 0x46 rfl rfl
theorem rmb4 (z : Byte) : Statement (.rmb4 z) := of_row 0x47 rfl rfl
theorem pha : Statement (.pha) := of_row 0x48 rfl rfl
theorem eorImm (v : Byte) : Statement (.eorImm v) := of_row 0x49 rfl rfl
theorem lsrAcc : Statement (.lsrAcc) := of_row 0x4A rfl rfl
theorem nop4B : Statement (.nop4B) := of_row 0x4B rfl rfl
theorem jmpAbs (w : Addr) : Statement (.jmpAbs w) := of_row 0x4C rfl rfl
theorem eorAbs (w : Addr) : Statement (.eorAbs w) := of_row 0x4D rfl rfl
theorem lsrAbs (w : Addr) : Statement (.lsrAbs w) := of_row 0x4E rfl rfl
theorem bbr4 (z : Byte) (off : Byte) : Statement (.bbr4 z off) := of_row 0x4F rfl rfl
theorem bvc (off : Byte) : Statement (.bvc off) := of_row 0x50 rfl rfl
theorem eorIndy (z : Byte) : Statement (.eorIndy z) := of_row 0x51 rfl rfl
theorem eorZpi (z : Byte) : Statement (.eorZpi z) := of_row 0x52 rfl rfl
theorem nop53 : Statement (.nop53) := of_row 0x53 rfl rfl
theorem nop54 (z : Byte) : Statement (.nop54 z) := of_row 0x54 rfl rfl
theorem eorZpx (z : Byte) : Statement (.eorZpx z) := of_row 0x55 rfl rfl
theorem lsrZpx (z : Byte) : Statement (.lsrZpx z) := of_row 0x56 rfl rfl
theorem rmb5 (z : Byte) : Statement (.rmb5 z) := of_row 0x57 rfl rfl
theorem cli : Statement (.cli) := of_row 0x58 rfl rfl
theorem eorAbsy (w : Addr) : Statement (.eorAbsy w) := of_row 0x59 rfl rfl
theorem phy : Statement (.phy) := of_row 0x5A rfl rfl
theorem nop5B : Statement (.nop5B) := of_row 0x5B rfl rfl
theorem nop5C (w : Addr) : Statement (.nop5C w) := of_row 0x5C rfl rfl
theorem eorAbsx (w : Addr) : Statement (.eorAbsx w) := of_row 0x5D rfl rfl
theorem lsrAbsx (w : Addr) : Statement (.lsrAbsx w) := of_row 0x5E rfl rfl
theorem bbr5 (z : Byte) (off : Byte) : Statement (.bbr5 z off) := of_row 0x5F rfl rfl
theorem rts : Statement (.rts) := of_row 0x60 rfl rfl
theorem adcIndx (z : Byte) : Statement (.adcIndx z) := of_row 0x61 rfl rfl
theorem nop62 (v : Byte) : Statement (.nop62 v) := of_row 0x62 rfl rfl
theorem nop63 : Statement (.nop63) := of_row 0x63 rfl rfl
theorem stzZpg (z : Byte) : Statement (.stzZpg z) := of_row 0x64 rfl rfl
theorem adcZpg (z : Byte) : Statement (.adcZpg z) := of_row 0x65 rfl rfl
theorem rorZpg (z : Byte) : Statement (.rorZpg z) := of_row 0x66 rfl rfl
theorem rmb6 (z : Byte) : Statement (.rmb6 z) := of_row 0x67 rfl rfl
theorem pla : Statement (.pla) := of_row 0x68 rfl rfl
theorem adcImm (v : Byte) : Statement (.adcImm v) := of_row 0x69 rfl rfl
theorem rorAcc : Statement (.rorAcc) := of_row 0x6A rfl rfl
theorem nop6B : Statement (.nop6B) := of_row 0x6B rfl rfl
theorem jmpInd (w : Addr) : Statement (.jmpInd w) := of_row 0x6C rfl rfl
theorem adcAbs (w : Addr) : Statement (.adcAbs w) := of_row 0x6D rfl rfl
theorem rorAbs (w : Addr) : Statement (.rorAbs w) := of_row 0x6E rfl rfl
theorem bbr6 (z : Byte) (off : Byte) : Statement (.bbr6 z off) := of_row 0x6F rfl rfl
theorem bvs (off : Byte) : Statement (.bvs off) := of_row 0x70 rfl rfl
theorem adcIndy (z : Byte) : Statement (.adcIndy z) := of_row 0x71 rfl rfl
theorem adcZpi (z : Byte) : Statement (.adcZpi z) := of_row 0x72 rfl rfl
theorem nop73 : Statement (.nop73) := of_row 0x73 rfl rfl
theorem stzZpx (z : Byte) : Statement (.stzZpx z) := of_row 0x74 rfl rfl
theorem adcZpx (z : Byte) : Statement (.adcZpx z) := of_row 0x75 rfl rfl
theorem rorZpx (z : Byte) : Statement (.rorZpx z) := of_row 0x76 rfl rfl
theorem rmb7 (z : Byte) : Statement (.rmb7 z) := of_row 0x77 rfl rfl
theorem sei : Statement (.sei) := of_row 0x78 rfl rfl
theorem adcAbsy (w : Addr) : Statement (.adcAbsy w) := of_row 0x79 rfl rfl
theorem ply : Statement (.ply) := of_row 0x7A rfl rfl
theorem nop7B : Statement (.nop7B) := of_row 0x7B rfl rfl
theorem jmpIax (w : Addr) : Statement (.jmpIax w) := of_row 0x7C rfl rfl
theorem adcAbsx (w : Addr) : Statement (.adcAbsx w) := of_row 0x7D rfl rfl
theorem rorAbsx (w : Addr) : Statement (.rorAbsx w) := of_row 0x7E rfl rfl
theorem bbr7 (z : Byte) (off : Byte) : Statement (.bbr7 z off) := of_row 0x7F rfl rfl
theorem bra (off : Byte) : Statement (.bra off) := of_row 0x80 rfl rfl
theorem staIndx (z : Byte) : Statement (.staIndx z) := of_row 0x81 rfl rfl
theorem nop82 (v : Byte) : Statement (.nop82 v) := of_row 0x82 rfl rfl
theorem nop83 : Statement (.nop83) := of_row 0x83 rfl rfl
theorem styZpg (z : Byte) : Statement (.styZpg z) := of_row 0x84 rfl rfl
theorem staZpg (z : Byte) : Statement (.staZpg z) := of_row 0x85 rfl rfl
theorem stxZpg (z : Byte) : Statement (.stxZpg z) := of_row 0x86 rfl rfl
theorem smb0 (z : Byte) : Statement (.smb0 z) := of_row 0x87 rfl rfl
theorem dey : Statement (.dey) := of_row 0x88 rfl rfl
theorem bitImm (v : Byte) : Statement (.bitImm v) := of_row 0x89 rfl rfl
theorem txa : Statement (.txa) := of_row 0x8A rfl rfl
theorem nop8B : Statement (.nop8B) := of_row 0x8B rfl rfl
theorem styAbs (w : Addr) : Statement (.styAbs w) := of_row 0x8C rfl rfl
theorem staAbs (w : Addr) : Statement (.staAbs w) := of_row 0x8D rfl rfl
theorem stxAbs (w : Addr) : Statement (.stxAbs w) := of_row 0x8E rfl rfl
theorem bbs0 (z : Byte) (off : Byte) : Statement (.bbs0 z off) := of_row 0x8F rfl rfl
theorem bcc (off : Byte) : Statement (.bcc off) := of_row 0x90 rfl rfl
theorem staIndy (z : Byte) : Statement (.staIndy z) := of_row 0x91 rfl rfl
theorem staZpi (z : Byte) : Statement (.staZpi z) := of_row 0x92 rfl rfl
theorem nop93 : Statement (.nop93) := of_row 0x93 rfl rfl
theorem styZpx (z : Byte) : Statement (.styZpx z) := of_row 0x94 rfl rfl
theorem staZpx (z : Byte) : Statement (.staZpx z) := of_row 0x95 rfl rfl
theorem stxZpy (z : Byte) : Statement (.stxZpy z) := of_row 0x96 rfl rfl
theorem smb1 (z : Byte) : Statement (.smb1 z) := of_row 0x97 rfl rfl
theorem tya : Statement (.tya) := of_row 0x98 rfl rfl
theorem staAbsy (w : Addr) : Statement (.staAbsy w) := of_row 0x99 rfl rfl
theorem txs : Statement (.txs) := of_row 0x9A rfl rfl
theorem nop9B : Statement (.nop9B) := of_row 0x9B rfl rfl
theorem stzAbs (w : Addr) : Statement (.stzAbs w) := of_row 0x9C rfl rfl
theorem staAbsx (w : Addr) : Statement (.staAbsx w) := of_row 0x9D rfl rfl
theorem stzAbsx (w : Addr) : Statement (.stzAbsx w) := of_row 0x9E rfl rfl
theorem bbs1 (z : Byte) (off : Byte) : Statement (.bbs1 z off) := of_row 0x9F rfl rfl
theorem ldyImm (v : Byte) : Statement (.ldyImm v) := of_row 0xA0 rfl rfl
theorem ldaIndx (z : Byte) : Statement (.ldaIndx z) := of_row 0xA1 rfl rfl
theorem ldxImm (v : Byte) : Statement (.ldxImm v) := of_row 0xA2 rfl rfl
theorem nopA3 : Statement (.nopA3) := of_row 0xA3 rfl rfl
theorem ldyZpg (z : Byte) : Statement (.ldyZpg z) := of_row 0xA4 rfl rfl
theorem ldaZpg (z : Byte) : Statement (.ldaZpg z) := of_row 0xA5 rfl rfl
theorem ldxZpg (z : Byte) : Statement (.ldxZpg z) := of_row 0xA6 rfl rfl
theorem smb2 (z : Byte) : Statement (.smb2 z) := of_row 0xA7 rfl rfl
theorem tay : Statement (.tay) := of_row 0xA8 rfl rfl
theorem ldaImm (v : Byte) : Statement (.ldaImm v) := of_row 0xA9 rfl rfl
theorem tax : Statement (.tax) := of_row 0xAA rfl rfl
theorem nopAB : Statement (.nopAB) := of_row 0xAB rfl rfl
theorem ldyAbs (w : Addr) : Statement (.ldyAbs w) := of_row 0xAC rfl rfl
theorem ldaAbs (w : Addr) : Statement (.ldaAbs w) := of_row 0xAD rfl rfl
theorem ldxAbs (w : Addr) : Statement (.ldxAbs w) := of_row 0xAE rfl rfl
theorem bbs2 (z : Byte) (off : Byte) : Statement (.bbs2 z off) := of_row 0xAF rfl rfl
theorem bcs (off : Byte) : Statement (.bcs off) := of_row 0xB0 rfl rfl
theorem ldaIndy (z : Byte) : Statement (.ldaIndy z) := of_row 0xB1 rfl rfl
theorem ldaZpi (z : Byte) : Statement (.ldaZpi z) := of_row 0xB2 rfl rfl
theorem nopB3 : Statement (.nopB3) := of_row 0xB3 rfl rfl
theorem ldyZpx (z : Byte) : Statement (.ldyZpx z) := of_row 0xB4 rfl rfl
theorem ldaZpx (z : Byte) : Statement (.ldaZpx z) := of_row 0xB5 rfl rfl
theorem ldxZpy (z : Byte) : Statement (.ldxZpy z) := of_row 0xB6 rfl rfl
theorem smb3 (z : Byte) : Statement (.smb3 z) := of_row 0xB7 rfl rfl
theorem clv : Statement (.clv) := of_row 0xB8 rfl rfl
theorem ldaAbsy (w : Addr) : Statement (.ldaAbsy w) := of_row 0xB9 rfl rfl
theorem tsx : Statement (.tsx) := of_row 0xBA rfl rfl
theorem nopBB : Statement (.nopBB) := of_row 0xBB rfl rfl
theorem ldyAbsx (w : Addr) : Statement (.ldyAbsx w) := of_row 0xBC rfl rfl
theorem ldaAbsx (w : Addr) : Statement (.ldaAbsx w) := of_row 0xBD rfl rfl
theorem ldxAbsy (w : Addr) : Statement (.ldxAbsy w) := of_row 0xBE rfl rfl
theorem bbs3 (z : Byte) (off : Byte) : Statement (.bbs3 z off) := of_row 0xBF rfl rfl
theorem cpyImm (v : Byte) : Statement (.cpyImm v) := of_row 0xC0 rfl rfl
theorem cmpIndx (z : Byte) : Statement (.cmpIndx z) := of_row 0xC1 rfl rfl
theorem nopC2 (v : Byte) : Statement (.nopC2 v) := of_row 0xC2 rfl rfl
theorem nopC3 : Statement (.nopC3) := of_row 0xC3 rfl rfl
theorem cpyZpg (z : Byte) : Statement (.cpyZpg z) := of_row 0xC4 rfl rfl
theorem cmpZpg (z : Byte) : Statement (.cmpZpg z) := of_row 0xC5 rfl rfl
theorem decZpg (z : Byte) : Statement (.decZpg z) := of_row 0xC6 rfl rfl
theorem smb4 (z : Byte) : Statement (.smb4 z) := of_row 0xC7 rfl rfl
theorem iny : Statement (.iny) := of_row 0xC8 rfl rfl
theorem cmpImm (v : Byte) : Statement (.cmpImm v) := of_row 0xC9 rfl rfl
theorem dex : Statement (.dex) := of_row 0xCA rfl rfl
theorem wai : Statement (.wai) := of_row 0xCB rfl rfl
theorem cpyAbs (w : Addr) : Statement (.cpyAbs w) := of_row 0xCC rfl rfl
theorem cmpAbs (w : Addr) : Statement (.cmpAbs w) := of_row 0xCD rfl rfl
theorem decAbs (w : Addr) : Statement (.decAbs w) := of_row 0xCE rfl rfl
theorem bbs4 (z : Byte) (off : Byte) : Statement (.bbs4 z off) := of_row 0xCF rfl rfl
theorem bne (off : Byte) : Statement (.bne off) := of_row 0xD0 rfl rfl
theorem cmpIndy (z : Byte) : Statement (.cmpIndy z) := of_row 0xD1 rfl rfl
theorem cmpZpi (z : Byte) : Statement (.cmpZpi z) := of_row 0xD2 rfl rfl
theorem nopD3 : Statement (.nopD3) := of_row 0xD3 rfl rfl
theorem nopD4 (z : Byte) : Statement (.nopD4 z) := of_row 0xD4 rfl rfl
theorem cmpZpx (z : Byte) : Statement (.cmpZpx z) := of_row 0xD5 rfl rfl
theorem decZpx (z : Byte) : Statement (.decZpx z) := of_row 0xD6 rfl rfl
theorem smb5 (z : Byte) : Statement (.smb5 z) := of_row 0xD7 rfl rfl
theorem cld : Statement (.cld) := of_row 0xD8 rfl rfl
theorem cmpAbsy (w : Addr) : Statement (.cmpAbsy w) := of_row 0xD9 rfl rfl
theorem phx : Statement (.phx) := of_row 0xDA rfl rfl
theorem stp : Statement (.stp) := of_row 0xDB rfl rfl
theorem nopDC (w : Addr) : Statement (.nopDC w) := of_row 0xDC rfl rfl
theorem cmpAbsx (w : Addr) : Statement (.cmpAbsx w) := of_row 0xDD rfl rfl
theorem decAbsx (w : Addr) : Statement (.decAbsx w) := of_row 0xDE rfl rfl
theorem bbs5 (z : Byte) (off : Byte) : Statement (.bbs5 z off) := of_row 0xDF rfl rfl
theorem cpxImm (v : Byte) : Statement (.cpxImm v) := of_row 0xE0 rfl rfl
theorem sbcIndx (z : Byte) : Statement (.sbcIndx z) := of_row 0xE1 rfl rfl
theorem nopE2 (v : Byte) : Statement (.nopE2 v) := of_row 0xE2 rfl rfl
theorem nopE3 : Statement (.nopE3) := of_row 0xE3 rfl rfl
theorem cpxZpg (z : Byte) : Statement (.cpxZpg z) := of_row 0xE4 rfl rfl
theorem sbcZpg (z : Byte) : Statement (.sbcZpg z) := of_row 0xE5 rfl rfl
theorem incZpg (z : Byte) : Statement (.incZpg z) := of_row 0xE6 rfl rfl
theorem smb6 (z : Byte) : Statement (.smb6 z) := of_row 0xE7 rfl rfl
theorem inx : Statement (.inx) := of_row 0xE8 rfl rfl
theorem sbcImm (v : Byte) : Statement (.sbcImm v) := of_row 0xE9 rfl rfl
theorem nop : Statement (.nop) := of_row 0xEA rfl rfl
theorem nopEB : Statement (.nopEB) := of_row 0xEB rfl rfl
theorem cpxAbs (w : Addr) : Statement (.cpxAbs w) := of_row 0xEC rfl rfl
theorem sbcAbs (w : Addr) : Statement (.sbcAbs w) := of_row 0xED rfl rfl
theorem incAbs (w : Addr) : Statement (.incAbs w) := of_row 0xEE rfl rfl
theorem bbs6 (z : Byte) (off : Byte) : Statement (.bbs6 z off) := of_row 0xEF rfl rfl
theorem beq (off : Byte) : Statement (.beq off) := of_row 0xF0 rfl rfl
theorem sbcIndy (z : Byte) : Statement (.sbcIndy z) := of_row 0xF1 rfl rfl
theorem sbcZpi (z : Byte) : Statement (.sbcZpi z) := of_row 0xF2 rfl rfl
theorem nopF3 : Statement (.nopF3) := of_row 0xF3 rfl rfl
theorem nopF4 (z : Byte) : Statement (.nopF4 z) := of_row 0xF4 rfl rfl
theorem sbcZpx (z : Byte) : Statement (.sbcZpx z) := of_row 0xF5 rfl rfl
theorem incZpx (z : Byte) : Statement (.incZpx z) := of_row 0xF6 rfl rfl
theorem smb7 (z : Byte) : Statement (.smb7 z) := of_row 0xF7 rfl rfl
theorem sed : Statement (.sed) := of_row 0xF8 rfl rfl
theorem sbcAbsy (w : Addr) : Statement (.sbcAbsy w) := of_row 0xF9 rfl rfl
theorem plx : Statement (.plx) := of_row 0xFA rfl rfl
theorem nopFB : Statement (.nopFB) := of_row 0xFB rfl rfl
theorem nopFC (w : Addr) : Statement (.nopFC w) := of_row 0xFC rfl rfl
theorem sbcAbsx (w : Addr) : Statement (.sbcAbsx w) := of_row 0xFD rfl rfl
theorem incAbsx (w : Addr) : Statement (.incAbsx w) := of_row 0xFE rfl rfl
theorem bbs7 (z : Byte) (off : Byte) : Statement (.bbs7 z off) := of_row 0xFF rfl rfl

end Sys2Proof.Laws.Length
end

