-- ==== Sys2Proof/Laws/Run.lean ====
section
/-! SUPPORT. What the end of a run is: the first state the host's predicate accepts that is neither faulted nor stopped
(R300, R346). -/

namespace Sys2Proof.Machine

theorem State.isEnd_iff (done : Nat → State → Bool) (taken : Nat) (s : State) :
    s.isEnd done taken = true ↔ s.fault = none ∧ s.stopped = false ∧ done taken s = true := by
  simp [State.isEnd, State.stuck, and_assoc]

/-- The state `n` steps after `s`. -/
def State.after : Nat → State → Option State
  | 0, s => some s
  | n + 1, s =>
    match step s with
    | .next t => State.after n t
    | _ => none

/-- A run that has taken `taken` steps and ends, ends at a state some `k` steps on, within the fuel, that is an end, and no
state before it is one. -/
theorem State.runFrom_spec {done : Nat → State → Bool} {taken n : Nat} {s t : State}
    (h : s.runFrom done taken n = some t) :
    ∃ k, k ≤ n ∧ s.after k = some t ∧ t.isEnd done (taken + k) = true ∧
      ∀ j, j < k → ∀ u, s.after j = some u → u.isEnd done (taken + j) = false := by
  induction n generalizing taken s with
  | zero =>
    rw [State.runFrom] at h
    split at h
    · next he => cases h; exact ⟨0, Nat.le_refl 0, rfl, he, fun j hj => absurd hj (Nat.not_lt_zero j)⟩
    · cases h
  | succ n ih =>
    rw [State.runFrom] at h
    split at h
    · next he => cases h; exact ⟨0, Nat.zero_le _, rfl, he, fun j hj => absurd hj (Nat.not_lt_zero j)⟩
    · next he =>
      split at h
      · next u hu =>
        obtain ⟨k, hk, hat, hend, hfirst⟩ := ih h
        refine ⟨k + 1, Nat.succ_le_succ hk, by rw [State.after, hu]; exact hat, ?_, ?_⟩
        · rw [show taken + (k + 1) = taken + 1 + k by omega]; exact hend
        · rintro (_ | j) hj v hv
          · cases hv; exact Bool.eq_false_iff.mpr he
          · rw [State.after, hu] at hv
            rw [show taken + (j + 1) = taken + 1 + j by omega]
            exact hfirst j (Nat.lt_of_succ_lt_succ hj) v hv
      · cases h

/-- The end of a run: the first state from the launch on that is an end. -/
theorem State.runUntil_spec {done : Nat → State → Bool} {n : Nat} {s t : State} (h : s.runUntil done n = some t) :
    ∃ k, k ≤ n ∧ s.after k = some t ∧ t.isEnd done k = true ∧
      ∀ j, j < k → ∀ u, s.after j = some u → u.isEnd done j = false := by
  simpa using State.runFrom_spec h

/-- A run at a faulted or stopped state has no end. -/
theorem State.runFrom_stuck {done : Nat → State → Bool} {s : State} (hs : s.stuck = true) (taken n : Nat) :
    s.runFrom done taken n = none := by
  have he : ∀ k, s.isEnd done k = false := fun k => by simp [State.isEnd, hs]
  have hstep : step s = .next s := by simp [step, State.turn, hs]
  induction n generalizing taken with
  | zero => simp [State.runFrom, he]
  | succ n ih => simp [State.runFrom, he, hstep, ih]

end Sys2Proof.Machine
end

