-- ==== Sys2Proof/Tests/Slice0.lean ====
section
/-! SUPPORT. Tests: ill-formed terms that WellFormed refuses; the decoding of every opcode byte, from the grids of
30_encoding.md R84 to R86; single steps with the expected results of 95_test_vectors.md; and, for every obligation with
hypotheses, a witness that they can be met. -/

namespace Sys2Proof.Tests

open Sys2Proof.Machine

/-! ### Helpers -/

def nmosCfg : Config := { Config.default with variant := .nmos }

def cmosCfg : Config := Config.default

def wdcCfg : Config := Config.allOpcodes

/-- A state with the bytes stored and PC set. -/
def load (cfg : Config) (pc : Addr) (cells : List (Addr × Byte)) (s : State) : State :=
  { cells.foldl (fun s c => s.write c.1 c.2) s with cfg := cfg, pc := pc }

/-- The state a step leaves. -/
def after (s : State) : State :=
  match step s with
  | .next t => t
  | _ => s

/-! ### WellFormed: one ill-formed term for each check -/

/-- R85, R92: a CMOS-only instruction on NMOS. -/
theorem test_wellFormed_refuses_cmos_on_nmos : (Instr.stzZpg 0x10).wellFormed nmosCfg = false := by decide

/-- R86, R270: an optional instruction on CMOS without the optional set. -/
theorem test_wellFormed_refuses_wdc_without_extras : (Instr.bbr0 0x10 0x05).wellFormed cmosCfg = false := by decide

/-- R86: an optional instruction on NMOS, whatever WDC_EXTRAS is. -/
theorem test_wellFormed_refuses_wdc_on_nmos :
    (Instr.stp).wellFormed { nmosCfg with wdcExtras := true } = false := by decide

/-- R84, R85, R86: the same terms where their tables hold them. -/
theorem test_wellFormed_accepts :
    (Instr.ldaImm 0x00).wellFormed nmosCfg = true ∧ (Instr.stzZpg 0x10).wellFormed cmosCfg = true ∧
      (Instr.bbr0 0x10 0x05).wellFormed wdcCfg = true := by decide

/-- R92: the decoder rejects an undefined opcode byte, and a truncated instruction, by name. -/
theorem test_decode_rejects :
    decodeBytes nmosCfg [0x80, 0x00] = .error (.undefinedOpcode 0x80) ∧
      decodeBytes nmosCfg [0xAD, 0x00] = .error .truncated ∧ decodeBytes nmosCfg [] = .error .truncated :=
  ⟨rfl, rfl, rfl⟩

/-! ### Decoding: every cell of the grids of R84 to R86, operand bytes 12 34 (R81: low byte first) -/

theorem test_decode_row_0 :
    [
      decodeTableWord 8 0x00, decodeTableWord 16 0x1201, decodeTableWord 16 0x1202, decodeTableWord 8 0x03,
      decodeTableWord 16 0x1204, decodeTableWord 16 0x1205, decodeTableWord 16 0x1206, decodeTableWord 16 0x1207,
      decodeTableWord 8 0x08, decodeTableWord 16 0x1209, decodeTableWord 8 0x0A, decodeTableWord 8 0x0B,
      decodeTableWord 24 0x34120C, decodeTableWord 24 0x34120D, decodeTableWord 24 0x34120E, decodeTableWord 24 0x34120F] = [
      some .brk, some (.oraIndx 0x12), some (.nop02 0x12), some .nop03,
      some (.tsbZpg 0x12), some (.oraZpg 0x12), some (.aslZpg 0x12), some (.rmb0 0x12),
      some .php, some (.oraImm 0x12), some .aslAcc, some .nop0B,
      some (.tsbAbs 0x3412), some (.oraAbs 0x3412), some (.aslAbs 0x3412), some (.bbr0 0x12 0x34)] := by decide

theorem test_decode_row_1 :
    [
      decodeTableWord 16 0x1210, decodeTableWord 16 0x1211, decodeTableWord 16 0x1212, decodeTableWord 8 0x13,
      decodeTableWord 16 0x1214, decodeTableWord 16 0x1215, decodeTableWord 16 0x1216, decodeTableWord 16 0x1217,
      decodeTableWord 8 0x18, decodeTableWord 24 0x341219, decodeTableWord 8 0x1A, decodeTableWord 8 0x1B,
      decodeTableWord 24 0x34121C, decodeTableWord 24 0x34121D, decodeTableWord 24 0x34121E, decodeTableWord 24 0x34121F] = [
      some (.bpl 0x12), some (.oraIndy 0x12), some (.oraZpi 0x12), some .nop13,
      some (.trbZpg 0x12), some (.oraZpx 0x12), some (.aslZpx 0x12), some (.rmb1 0x12),
      some .clc, some (.oraAbsy 0x3412), some .incAcc, some .nop1B,
      some (.trbAbs 0x3412), some (.oraAbsx 0x3412), some (.aslAbsx 0x3412), some (.bbr1 0x12 0x34)] := by decide

theorem test_decode_row_2 :
    [
      decodeTableWord 24 0x341220, decodeTableWord 16 0x1221, decodeTableWord 16 0x1222, decodeTableWord 8 0x23,
      decodeTableWord 16 0x1224, decodeTableWord 16 0x1225, decodeTableWord 16 0x1226, decodeTableWord 16 0x1227,
      decodeTableWord 8 0x28, decodeTableWord 16 0x1229, decodeTableWord 8 0x2A, decodeTableWord 8 0x2B,
      decodeTableWord 24 0x34122C, decodeTableWord 24 0x34122D, decodeTableWord 24 0x34122E, decodeTableWord 24 0x34122F] = [
      some (.jsr 0x3412), some (.andIndx 0x12), some (.nop22 0x12), some .nop23,
      some (.bitZpg 0x12), some (.andZpg 0x12), some (.rolZpg 0x12), some (.rmb2 0x12),
      some .plp, some (.andImm 0x12), some .rolAcc, some .nop2B,
      some (.bitAbs 0x3412), some (.andAbs 0x3412), some (.rolAbs 0x3412), some (.bbr2 0x12 0x34)] := by decide

theorem test_decode_row_3 :
    [
      decodeTableWord 16 0x1230, decodeTableWord 16 0x1231, decodeTableWord 16 0x1232, decodeTableWord 8 0x33,
      decodeTableWord 16 0x1234, decodeTableWord 16 0x1235, decodeTableWord 16 0x1236, decodeTableWord 16 0x1237,
      decodeTableWord 8 0x38, decodeTableWord 24 0x341239, decodeTableWord 8 0x3A, decodeTableWord 8 0x3B,
      decodeTableWord 24 0x34123C, decodeTableWord 24 0x34123D, decodeTableWord 24 0x34123E, decodeTableWord 24 0x34123F] = [
      some (.bmi 0x12), some (.andIndy 0x12), some (.andZpi 0x12), some .nop33,
      some (.bitZpx 0x12), some (.andZpx 0x12), some (.rolZpx 0x12), some (.rmb3 0x12),
      some .sec, some (.andAbsy 0x3412), some .decAcc, some .nop3B,
      some (.bitAbsx 0x3412), some (.andAbsx 0x3412), some (.rolAbsx 0x3412), some (.bbr3 0x12 0x34)] := by decide

theorem test_decode_row_4 :
    [
      decodeTableWord 8 0x40, decodeTableWord 16 0x1241, decodeTableWord 16 0x1242, decodeTableWord 8 0x43,
      decodeTableWord 16 0x1244, decodeTableWord 16 0x1245, decodeTableWord 16 0x1246, decodeTableWord 16 0x1247,
      decodeTableWord 8 0x48, decodeTableWord 16 0x1249, decodeTableWord 8 0x4A, decodeTableWord 8 0x4B,
      decodeTableWord 24 0x34124C, decodeTableWord 24 0x34124D, decodeTableWord 24 0x34124E, decodeTableWord 24 0x34124F] = [
      some .rti, some (.eorIndx 0x12), some (.nop42 0x12), some .nop43,
      some (.nop44 0x12), some (.eorZpg 0x12), some (.lsrZpg 0x12), some (.rmb4 0x12),
      some .pha, some (.eorImm 0x12), some .lsrAcc, some .nop4B,
      some (.jmpAbs 0x3412), some (.eorAbs 0x3412), some (.lsrAbs 0x3412), some (.bbr4 0x12 0x34)] := by decide

theorem test_decode_row_5 :
    [
      decodeTableWord 16 0x1250, decodeTableWord 16 0x1251, decodeTableWord 16 0x1252, decodeTableWord 8 0x53,
      decodeTableWord 16 0x1254, decodeTableWord 16 0x1255, decodeTableWord 16 0x1256, decodeTableWord 16 0x1257,
      decodeTableWord 8 0x58, decodeTableWord 24 0x341259, decodeTableWord 8 0x5A, decodeTableWord 8 0x5B,
      decodeTableWord 24 0x34125C, decodeTableWord 24 0x34125D, decodeTableWord 24 0x34125E, decodeTableWord 24 0x34125F] = [
      some (.bvc 0x12), some (.eorIndy 0x12), some (.eorZpi 0x12), some .nop53,
      some (.nop54 0x12), some (.eorZpx 0x12), some (.lsrZpx 0x12), some (.rmb5 0x12),
      some .cli, some (.eorAbsy 0x3412), some .phy, some .nop5B,
      some (.nop5C 0x3412), some (.eorAbsx 0x3412), some (.lsrAbsx 0x3412), some (.bbr5 0x12 0x34)] := by decide

theorem test_decode_row_6 :
    [
      decodeTableWord 8 0x60, decodeTableWord 16 0x1261, decodeTableWord 16 0x1262, decodeTableWord 8 0x63,
      decodeTableWord 16 0x1264, decodeTableWord 16 0x1265, decodeTableWord 16 0x1266, decodeTableWord 16 0x1267,
      decodeTableWord 8 0x68, decodeTableWord 16 0x1269, decodeTableWord 8 0x6A, decodeTableWord 8 0x6B,
      decodeTableWord 24 0x34126C, decodeTableWord 24 0x34126D, decodeTableWord 24 0x34126E, decodeTableWord 24 0x34126F] = [
      some .rts, some (.adcIndx 0x12), some (.nop62 0x12), some .nop63,
      some (.stzZpg 0x12), some (.adcZpg 0x12), some (.rorZpg 0x12), some (.rmb6 0x12),
      some .pla, some (.adcImm 0x12), some .rorAcc, some .nop6B,
      some (.jmpInd 0x3412), some (.adcAbs 0x3412), some (.rorAbs 0x3412), some (.bbr6 0x12 0x34)] := by decide

theorem test_decode_row_7 :
    [
      decodeTableWord 16 0x1270, decodeTableWord 16 0x1271, decodeTableWord 16 0x1272, decodeTableWord 8 0x73,
      decodeTableWord 16 0x1274, decodeTableWord 16 0x1275, decodeTableWord 16 0x1276, decodeTableWord 16 0x1277,
      decodeTableWord 8 0x78, decodeTableWord 24 0x341279, decodeTableWord 8 0x7A, decodeTableWord 8 0x7B,
      decodeTableWord 24 0x34127C, decodeTableWord 24 0x34127D, decodeTableWord 24 0x34127E, decodeTableWord 24 0x34127F] = [
      some (.bvs 0x12), some (.adcIndy 0x12), some (.adcZpi 0x12), some .nop73,
      some (.stzZpx 0x12), some (.adcZpx 0x12), some (.rorZpx 0x12), some (.rmb7 0x12),
      some .sei, some (.adcAbsy 0x3412), some .ply, some .nop7B,
      some (.jmpIax 0x3412), some (.adcAbsx 0x3412), some (.rorAbsx 0x3412), some (.bbr7 0x12 0x34)] := by decide

theorem test_decode_row_8 :
    [
      decodeTableWord 16 0x1280, decodeTableWord 16 0x1281, decodeTableWord 16 0x1282, decodeTableWord 8 0x83,
      decodeTableWord 16 0x1284, decodeTableWord 16 0x1285, decodeTableWord 16 0x1286, decodeTableWord 16 0x1287,
      decodeTableWord 8 0x88, decodeTableWord 16 0x1289, decodeTableWord 8 0x8A, decodeTableWord 8 0x8B,
      decodeTableWord 24 0x34128C, decodeTableWord 24 0x34128D, decodeTableWord 24 0x34128E, decodeTableWord 24 0x34128F] = [
      some (.bra 0x12), some (.staIndx 0x12), some (.nop82 0x12), some .nop83,
      some (.styZpg 0x12), some (.staZpg 0x12), some (.stxZpg 0x12), some (.smb0 0x12),
      some .dey, some (.bitImm 0x12), some .txa, some .nop8B,
      some (.styAbs 0x3412), some (.staAbs 0x3412), some (.stxAbs 0x3412), some (.bbs0 0x12 0x34)] := by decide

theorem test_decode_row_9 :
    [
      decodeTableWord 16 0x1290, decodeTableWord 16 0x1291, decodeTableWord 16 0x1292, decodeTableWord 8 0x93,
      decodeTableWord 16 0x1294, decodeTableWord 16 0x1295, decodeTableWord 16 0x1296, decodeTableWord 16 0x1297,
      decodeTableWord 8 0x98, decodeTableWord 24 0x341299, decodeTableWord 8 0x9A, decodeTableWord 8 0x9B,
      decodeTableWord 24 0x34129C, decodeTableWord 24 0x34129D, decodeTableWord 24 0x34129E, decodeTableWord 24 0x34129F] = [
      some (.bcc 0x12), some (.staIndy 0x12), some (.staZpi 0x12), some .nop93,
      some (.styZpx 0x12), some (.staZpx 0x12), some (.stxZpy 0x12), some (.smb1 0x12),
      some .tya, some (.staAbsy 0x3412), some .txs, some .nop9B,
      some (.stzAbs 0x3412), some (.staAbsx 0x3412), some (.stzAbsx 0x3412), some (.bbs1 0x12 0x34)] := by decide

theorem test_decode_row_A :
    [
      decodeTableWord 16 0x12A0, decodeTableWord 16 0x12A1, decodeTableWord 16 0x12A2, decodeTableWord 8 0xA3,
      decodeTableWord 16 0x12A4, decodeTableWord 16 0x12A5, decodeTableWord 16 0x12A6, decodeTableWord 16 0x12A7,
      decodeTableWord 8 0xA8, decodeTableWord 16 0x12A9, decodeTableWord 8 0xAA, decodeTableWord 8 0xAB,
      decodeTableWord 24 0x3412AC, decodeTableWord 24 0x3412AD, decodeTableWord 24 0x3412AE, decodeTableWord 24 0x3412AF] = [
      some (.ldyImm 0x12), some (.ldaIndx 0x12), some (.ldxImm 0x12), some .nopA3,
      some (.ldyZpg 0x12), some (.ldaZpg 0x12), some (.ldxZpg 0x12), some (.smb2 0x12),
      some .tay, some (.ldaImm 0x12), some .tax, some .nopAB,
      some (.ldyAbs 0x3412), some (.ldaAbs 0x3412), some (.ldxAbs 0x3412), some (.bbs2 0x12 0x34)] := by decide

theorem test_decode_row_B :
    [
      decodeTableWord 16 0x12B0, decodeTableWord 16 0x12B1, decodeTableWord 16 0x12B2, decodeTableWord 8 0xB3,
      decodeTableWord 16 0x12B4, decodeTableWord 16 0x12B5, decodeTableWord 16 0x12B6, decodeTableWord 16 0x12B7,
      decodeTableWord 8 0xB8, decodeTableWord 24 0x3412B9, decodeTableWord 8 0xBA, decodeTableWord 8 0xBB,
      decodeTableWord 24 0x3412BC, decodeTableWord 24 0x3412BD, decodeTableWord 24 0x3412BE, decodeTableWord 24 0x3412BF] = [
      some (.bcs 0x12), some (.ldaIndy 0x12), some (.ldaZpi 0x12), some .nopB3,
      some (.ldyZpx 0x12), some (.ldaZpx 0x12), some (.ldxZpy 0x12), some (.smb3 0x12),
      some .clv, some (.ldaAbsy 0x3412), some .tsx, some .nopBB,
      some (.ldyAbsx 0x3412), some (.ldaAbsx 0x3412), some (.ldxAbsy 0x3412), some (.bbs3 0x12 0x34)] := by decide

theorem test_decode_row_C :
    [
      decodeTableWord 16 0x12C0, decodeTableWord 16 0x12C1, decodeTableWord 16 0x12C2, decodeTableWord 8 0xC3,
      decodeTableWord 16 0x12C4, decodeTableWord 16 0x12C5, decodeTableWord 16 0x12C6, decodeTableWord 16 0x12C7,
      decodeTableWord 8 0xC8, decodeTableWord 16 0x12C9, decodeTableWord 8 0xCA, decodeTableWord 8 0xCB,
      decodeTableWord 24 0x3412CC, decodeTableWord 24 0x3412CD, decodeTableWord 24 0x3412CE, decodeTableWord 24 0x3412CF] = [
      some (.cpyImm 0x12), some (.cmpIndx 0x12), some (.nopC2 0x12), some .nopC3,
      some (.cpyZpg 0x12), some (.cmpZpg 0x12), some (.decZpg 0x12), some (.smb4 0x12),
      some .iny, some (.cmpImm 0x12), some .dex, some .wai,
      some (.cpyAbs 0x3412), some (.cmpAbs 0x3412), some (.decAbs 0x3412), some (.bbs4 0x12 0x34)] := by decide

theorem test_decode_row_D :
    [
      decodeTableWord 16 0x12D0, decodeTableWord 16 0x12D1, decodeTableWord 16 0x12D2, decodeTableWord 8 0xD3,
      decodeTableWord 16 0x12D4, decodeTableWord 16 0x12D5, decodeTableWord 16 0x12D6, decodeTableWord 16 0x12D7,
      decodeTableWord 8 0xD8, decodeTableWord 24 0x3412D9, decodeTableWord 8 0xDA, decodeTableWord 8 0xDB,
      decodeTableWord 24 0x3412DC, decodeTableWord 24 0x3412DD, decodeTableWord 24 0x3412DE, decodeTableWord 24 0x3412DF] = [
      some (.bne 0x12), some (.cmpIndy 0x12), some (.cmpZpi 0x12), some .nopD3,
      some (.nopD4 0x12), some (.cmpZpx 0x12), some (.decZpx 0x12), some (.smb5 0x12),
      some .cld, some (.cmpAbsy 0x3412), some .phx, some .stp,
      some (.nopDC 0x3412), some (.cmpAbsx 0x3412), some (.decAbsx 0x3412), some (.bbs5 0x12 0x34)] := by decide

theorem test_decode_row_E :
    [
      decodeTableWord 16 0x12E0, decodeTableWord 16 0x12E1, decodeTableWord 16 0x12E2, decodeTableWord 8 0xE3,
      decodeTableWord 16 0x12E4, decodeTableWord 16 0x12E5, decodeTableWord 16 0x12E6, decodeTableWord 16 0x12E7,
      decodeTableWord 8 0xE8, decodeTableWord 16 0x12E9, decodeTableWord 8 0xEA, decodeTableWord 8 0xEB,
      decodeTableWord 24 0x3412EC, decodeTableWord 24 0x3412ED, decodeTableWord 24 0x3412EE, decodeTableWord 24 0x3412EF] = [
      some (.cpxImm 0x12), some (.sbcIndx 0x12), some (.nopE2 0x12), some .nopE3,
      some (.cpxZpg 0x12), some (.sbcZpg 0x12), some (.incZpg 0x12), some (.smb6 0x12),
      some .inx, some (.sbcImm 0x12), some .nop, some .nopEB,
      some (.cpxAbs 0x3412), some (.sbcAbs 0x3412), some (.incAbs 0x3412), some (.bbs6 0x12 0x34)] := by decide

theorem test_decode_row_F :
    [
      decodeTableWord 16 0x12F0, decodeTableWord 16 0x12F1, decodeTableWord 16 0x12F2, decodeTableWord 8 0xF3,
      decodeTableWord 16 0x12F4, decodeTableWord 16 0x12F5, decodeTableWord 16 0x12F6, decodeTableWord 16 0x12F7,
      decodeTableWord 8 0xF8, decodeTableWord 24 0x3412F9, decodeTableWord 8 0xFA, decodeTableWord 8 0xFB,
      decodeTableWord 24 0x3412FC, decodeTableWord 24 0x3412FD, decodeTableWord 24 0x3412FE, decodeTableWord 24 0x3412FF] = [
      some (.beq 0x12), some (.sbcIndy 0x12), some (.sbcZpi 0x12), some .nopF3,
      some (.nopF4 0x12), some (.sbcZpx 0x12), some (.incZpx 0x12), some (.smb7 0x12),
      some .sed, some (.sbcAbsy 0x3412), some .plx, some .nopFB,
      some (.nopFC 0x3412), some (.sbcAbsx 0x3412), some (.incAbsx 0x3412), some (.bbs7 0x12 0x34)] := by decide

/-- R81, R84: LDA absx, bits 1011 1101, then the operand bytes 1111 0000 and 0001 0000. -/
theorem test_decode_bits_lda_absx : decodeTableWord 24 0b000100001111000010111101 = some (.ldaAbsx 0x10F0) := by
  decide

/-- R96: the query of a defined and of an undefined opcode byte. -/
theorem test_query : tableQuery nmosCfg 0x6C = ("JMP", .ind) ∧ tableQuery nmosCfg 0x80 = ("???", .imp) := by
  decide

/-! ### Single steps: the expected values are those of 95_test_vectors.md -/

/-- 95_test_vectors.md V1 row 1. -/
theorem test_V1_1_ldaZpx :
    let t := after (load nmosCfg 0x0200 [(0x0200, 0xB5), (0x0201, 0xF0), (0x0010, 0x77)]
      { State.reset with x := 0x20 })
    t.pc = 0x0202 ∧ t.a = 0x77 ∧ t.cycles = 4 := by decide

/-- 95_test_vectors.md V1 row 2. -/
theorem test_V1_2_ldxZpy :
    let t := after (load nmosCfg 0x0200 [(0x0200, 0xB6), (0x0201, 0xFF), (0x0001, 0x66)]
      { State.reset with y := 0x02 })
    t.pc = 0x0202 ∧ t.x = 0x66 ∧ t.cycles = 4 := by decide

/-- 95_test_vectors.md V1 row 3. -/
theorem test_V1_3_ldaAbsx :
    let t := after (load nmosCfg 0x0200 [(0x0200, 0xBD), (0x0201, 0xF0), (0x0202, 0xFF), (0x0010, 0x55)]
      { State.reset with x := 0x20 })
    t.pc = 0x0203 ∧ t.a = 0x55 ∧ t.cycles = 5 := by decide

/-- 95_test_vectors.md V1 row 10. -/
theorem test_V1_10_staAbsx :
    let t := after (load nmosCfg 0x0200 [(0x0200, 0x9D), (0x0201, 0xF0), (0x0202, 0x10)]
      { State.reset with a := 0x42, x := 0x20 })
    t.pc = 0x0203 ∧ t.read 0x1110 = 0x42 ∧ t.cycles = 5 := by decide

/-- 95_test_vectors.md V2 row 4. -/
theorem test_V2_4_ldyImm :
    let t := after (load nmosCfg 0x0200 [(0x0200, 0xA0), (0x0201, 0x01)]
      State.reset)
    t.pc = 0x0202 ∧ t.y = 0x01 ∧ t.cycles = 2 := by decide

/-- 95_test_vectors.md V2 row 6. -/
theorem test_V2_6_stxZpy :
    let t := after (load nmosCfg 0x0200 [(0x0200, 0x96), (0x0201, 0xFF)]
      { State.reset with x := 0x07, y := 0x02 })
    t.pc = 0x0202 ∧ t.read 0x0001 = 0x07 ∧ t.cycles = 4 := by decide

/-- 95_test_vectors.md V2 row 7. -/
theorem test_V2_7_styAbs :
    let t := after (load nmosCfg 0x0200 [(0x0200, 0x8C), (0x0201, 0x00), (0x0202, 0x03)]
      { State.reset with y := 0x99 })
    t.pc = 0x0203 ∧ t.read 0x0300 = 0x99 ∧ t.cycles = 4 := by decide

/-- 95_test_vectors.md V2 row 8. -/
theorem test_V2_8_stzAbs :
    let t := after (load cmosCfg 0x0200 [(0x0200, 0x9C), (0x0201, 0x00), (0x0202, 0x03), (0x0300, 0xFF)]
      State.reset)
    t.pc = 0x0203 ∧ t.read 0x0300 = 0x00 ∧ t.cycles = 4 := by decide

/-- 95_test_vectors.md V2 row 11. -/
theorem test_V2_11_tax :
    let t := after (load nmosCfg 0x0200 [(0x0200, 0xAA)]
      { State.reset with a := 0x80 })
    t.pc = 0x0201 ∧ t.x = 0x80 ∧ t.p.toByte = 0xB0 ∧ t.cycles = 2 := by decide

/-- 95_test_vectors.md V2 row 12. -/
theorem test_V2_12_tay :
    let t := after (load nmosCfg 0x0200 [(0x0200, 0xA8)]
      { State.reset with a := 0x00, p := .ofByte 0xB2 })
    t.pc = 0x0201 ∧ t.p.toByte = 0x32 ∧ t.cycles = 2 := by decide

/-- 95_test_vectors.md V2 row 13. -/
theorem test_V2_13_txa :
    let t := after (load nmosCfg 0x0200 [(0x0200, 0x8A)]
      { State.reset with x := 0x01, p := .ofByte 0x32 })
    t.pc = 0x0201 ∧ t.a = 0x01 ∧ t.p.toByte = 0x30 ∧ t.cycles = 2 := by decide

/-- 95_test_vectors.md V2 row 14. -/
theorem test_V2_14_tya :
    let t := after (load nmosCfg 0x0200 [(0x0200, 0x98)]
      { State.reset with y := 0xFF })
    t.pc = 0x0201 ∧ t.a = 0xFF ∧ t.p.toByte = 0xB0 ∧ t.cycles = 2 := by decide

/-- 95_test_vectors.md V2 row 15. -/
theorem test_V2_15_tsx :
    let t := after (load nmosCfg 0x0200 [(0x0200, 0xBA)]
      State.reset)
    t.pc = 0x0201 ∧ t.x = 0xFF ∧ t.p.toByte = 0xB0 ∧ t.cycles = 2 := by decide

/-- 95_test_vectors.md V2 row 16. -/
theorem test_V2_16_txs :
    let t := after (load nmosCfg 0x0200 [(0x0200, 0x9A)]
      { State.reset with x := 0x00 })
    t.pc = 0x0201 ∧ t.sp = 0x00 ∧ t.cycles = 2 := by decide

/-- 95_test_vectors.md V3 row 1. -/
theorem test_V3_1_adcImm :
    let t := after (load nmosCfg 0x0200 [(0x0200, 0x69), (0x0201, 0x00)]
      { State.reset with p := .ofByte 0x31 })
    t.pc = 0x0202 ∧ t.a = 0x01 ∧ t.p.toByte = 0x30 ∧ t.cycles = 2 := by decide

/-- 95_test_vectors.md V3 row 2. -/
theorem test_V3_2_adcImm :
    let t := after (load nmosCfg 0x0200 [(0x0200, 0x69), (0x0201, 0x50)]
      { State.reset with a := 0x50 })
    t.pc = 0x0202 ∧ t.a = 0xA0 ∧ t.p.toByte = 0xF0 ∧ t.cycles = 2 := by decide

/-- 95_test_vectors.md V3 row 6. -/
theorem test_V3_6_sbcImm :
    let t := after (load nmosCfg 0x0200 [(0x0200, 0xE9), (0x0201, 0xB0)]
      { State.reset with a := 0x50, p := .ofByte 0x31 })
    t.pc = 0x0202 ∧ t.a = 0xA0 ∧ t.p.toByte = 0xF0 ∧ t.cycles = 2 := by decide

/-- 95_test_vectors.md V3 row 7. -/
theorem test_V3_7_sbcImm :
    let t := after (load nmosCfg 0x0200 [(0x0200, 0xE9), (0x0201, 0x01)]
      { State.reset with a := 0x00, p := .ofByte 0x31 })
    t.pc = 0x0202 ∧ t.a = 0xFF ∧ t.p.toByte = 0xB0 ∧ t.cycles = 2 := by decide

/-- 95_test_vectors.md V3 row 20. -/
theorem test_V3_20_cmpImm :
    let t := after (load nmosCfg 0x0200 [(0x0200, 0xC9), (0x0201, 0x40)]
      { State.reset with a := 0x40 })
    t.pc = 0x0202 ∧ t.p.toByte = 0x33 ∧ t.cycles = 2 := by decide

/-- 95_test_vectors.md V3 row 23. -/
theorem test_V3_23_cpxImm :
    let t := after (load nmosCfg 0x0200 [(0x0200, 0xE0), (0x0201, 0x05)]
      { State.reset with x := 0x05 })
    t.pc = 0x0202 ∧ t.p.toByte = 0x33 ∧ t.cycles = 2 := by decide

/-- 95_test_vectors.md V3 row 24. -/
theorem test_V3_24_cpyImm :
    let t := after (load nmosCfg 0x0200 [(0x0200, 0xC0), (0x0201, 0x80)]
      { State.reset with y := 0x7F })
    t.pc = 0x0202 ∧ t.p.toByte = 0xB0 ∧ t.cycles = 2 := by decide

/-- 95_test_vectors.md V3 row 25. -/
theorem test_V3_25_incZpg :
    let t := after (load nmosCfg 0x0200 [(0x0200, 0xE6), (0x0201, 0x10), (0x0010, 0xFF)]
      State.reset)
    t.pc = 0x0202 ∧ t.p.toByte = 0x32 ∧ t.read 0x0010 = 0x00 ∧ t.cycles = 5 := by decide

/-- 95_test_vectors.md V3 row 26. -/
theorem test_V3_26_decAbs :
    let t := after (load nmosCfg 0x0200 [(0x0200, 0xCE), (0x0201, 0x00), (0x0202, 0x03), (0x0300, 0x80)]
      State.reset)
    t.pc = 0x0203 ∧ t.read 0x0300 = 0x7F ∧ t.cycles = 6 := by decide

/-- 95_test_vectors.md V3 row 29. -/
theorem test_V3_29_inx :
    let t := after (load nmosCfg 0x0200 [(0x0200, 0xE8)]
      { State.reset with x := 0xFF })
    t.pc = 0x0201 ∧ t.x = 0x00 ∧ t.p.toByte = 0x32 ∧ t.cycles = 2 := by decide

/-- 95_test_vectors.md V3 row 30. -/
theorem test_V3_30_iny :
    let t := after (load nmosCfg 0x0200 [(0x0200, 0xC8)]
      { State.reset with y := 0x7F })
    t.pc = 0x0201 ∧ t.y = 0x80 ∧ t.p.toByte = 0xB0 ∧ t.cycles = 2 := by decide

/-- 95_test_vectors.md V3 row 31. -/
theorem test_V3_31_dex :
    let t := after (load nmosCfg 0x0200 [(0x0200, 0xCA)]
      { State.reset with x := 0x01 })
    t.pc = 0x0201 ∧ t.x = 0x00 ∧ t.p.toByte = 0x32 ∧ t.cycles = 2 := by decide

/-- 95_test_vectors.md V3 row 32. -/
theorem test_V3_32_dey :
    let t := after (load nmosCfg 0x0200 [(0x0200, 0x88)]
      { State.reset with y := 0x00 })
    t.pc = 0x0201 ∧ t.y = 0xFF ∧ t.p.toByte = 0xB0 ∧ t.cycles = 2 := by decide

/-- 95_test_vectors.md V4 row 1. -/
theorem test_V4_1_andImm :
    let t := after (load nmosCfg 0x0200 [(0x0200, 0x29), (0x0201, 0x3C)]
      { State.reset with a := 0xF0 })
    t.pc = 0x0202 ∧ t.a = 0x30 ∧ t.cycles = 2 := by decide

/-- 95_test_vectors.md V4 row 3. -/
theorem test_V4_3_oraImm :
    let t := after (load nmosCfg 0x0200 [(0x0200, 0x09), (0x0201, 0x80)]
      { State.reset with a := 0x01 })
    t.pc = 0x0202 ∧ t.a = 0x81 ∧ t.p.toByte = 0xB0 ∧ t.cycles = 2 := by decide

/-- 95_test_vectors.md V4 row 4. -/
theorem test_V4_4_eorImm :
    let t := after (load nmosCfg 0x0200 [(0x0200, 0x49), (0x0201, 0xFF)]
      { State.reset with a := 0x0F })
    t.pc = 0x0202 ∧ t.a = 0xF0 ∧ t.p.toByte = 0xB0 ∧ t.cycles = 2 := by decide

/-- 95_test_vectors.md V4 row 5. -/
theorem test_V4_5_bitZpg :
    let t := after (load nmosCfg 0x0200 [(0x0200, 0x24), (0x0201, 0x10), (0x0010, 0xC0)]
      { State.reset with a := 0x01 })
    t.pc = 0x0202 ∧ t.p.toByte = 0xF2 ∧ t.cycles = 3 := by decide

/-- 95_test_vectors.md V4 row 6. -/
theorem test_V4_6_bitAbs :
    let t := after (load nmosCfg 0x0200 [(0x0200, 0x2C), (0x0201, 0x00), (0x0202, 0x03), (0x0300, 0x01)]
      { State.reset with a := 0x01, p := .ofByte 0xF2 })
    t.pc = 0x0203 ∧ t.p.toByte = 0x30 ∧ t.cycles = 4 := by decide

/-- 95_test_vectors.md V4 row 9. -/
theorem test_V4_9_aslAcc :
    let t := after (load nmosCfg 0x0200 [(0x0200, 0x0A)]
      { State.reset with a := 0x80 })
    t.pc = 0x0201 ∧ t.a = 0x00 ∧ t.p.toByte = 0x33 ∧ t.cycles = 2 := by decide

/-- 95_test_vectors.md V4 row 11. -/
theorem test_V4_11_lsrAcc :
    let t := after (load nmosCfg 0x0200 [(0x0200, 0x4A)]
      { State.reset with a := 0x81 })
    t.pc = 0x0201 ∧ t.a = 0x40 ∧ t.p.toByte = 0x31 ∧ t.cycles = 2 := by decide

/-- 95_test_vectors.md V4 row 13. -/
theorem test_V4_13_rolAcc :
    let t := after (load nmosCfg 0x0200 [(0x0200, 0x2A)]
      { State.reset with a := 0x40, p := .ofByte 0x31 })
    t.pc = 0x0201 ∧ t.a = 0x81 ∧ t.p.toByte = 0xB0 ∧ t.cycles = 2 := by decide

/-- 95_test_vectors.md V4 row 15. -/
theorem test_V4_15_rorAcc :
    let t := after (load nmosCfg 0x0200 [(0x0200, 0x6A)]
      { State.reset with a := 0x02, p := .ofByte 0x31 })
    t.pc = 0x0201 ∧ t.a = 0x81 ∧ t.p.toByte = 0xB0 ∧ t.cycles = 2 := by decide

/-- 95_test_vectors.md V4 row 17. -/
theorem test_V4_17_tsbZpg :
    let t := after (load cmosCfg 0x0200 [(0x0200, 0x04), (0x0201, 0x10), (0x0010, 0xF0)]
      { State.reset with a := 0x0F })
    t.pc = 0x0202 ∧ t.p.toByte = 0x32 ∧ t.read 0x0010 = 0xFF ∧ t.cycles = 5 := by decide

/-- 95_test_vectors.md V4 row 19. -/
theorem test_V4_19_trbZpg :
    let t := after (load cmosCfg 0x0200 [(0x0200, 0x14), (0x0201, 0x10), (0x0010, 0xFF)]
      { State.reset with a := 0x0F })
    t.pc = 0x0202 ∧ t.read 0x0010 = 0xF0 ∧ t.cycles = 5 := by decide

/-- 95_test_vectors.md V4 row 21. -/
theorem test_V4_21_rmb0 :
    let t := after (load cmosCfg 0x0200 [(0x0200, 0x07), (0x0201, 0x20), (0x0020, 0xFF)]
      State.reset)
    t.pc = 0x0202 ∧ t.read 0x0020 = 0xFE ∧ t.cycles = 5 := by decide

/-- 95_test_vectors.md V4 row 22. -/
theorem test_V4_22_rmb7 :
    let t := after (load cmosCfg 0x0200 [(0x0200, 0x77), (0x0201, 0x20), (0x0020, 0xFF)]
      State.reset)
    t.pc = 0x0202 ∧ t.read 0x0020 = 0x7F ∧ t.cycles = 5 := by decide

/-- 95_test_vectors.md V4 row 23. -/
theorem test_V4_23_smb3 :
    let t := after (load cmosCfg 0x0200 [(0x0200, 0xB7), (0x0201, 0x20), (0x0020, 0x00)]
      State.reset)
    t.pc = 0x0202 ∧ t.read 0x0020 = 0x08 ∧ t.cycles = 5 := by decide

/-- 95_test_vectors.md V4 row 24. -/
theorem test_V4_24_smb7 :
    let t := after (load cmosCfg 0x0200 [(0x0200, 0xF7), (0x0201, 0x20), (0x0020, 0x80)]
      State.reset)
    t.pc = 0x0202 ∧ t.cycles = 5 := by decide

/-- 95_test_vectors.md V5 row 1. -/
theorem test_V5_1_bne :
    let t := after (load nmosCfg 0x0200 [(0x0200, 0xD0), (0x0201, 0x10)]
      { State.reset with p := .ofByte 0x30 })
    t.pc = 0x0212 ∧ t.cycles = 3 := by decide

/-- 95_test_vectors.md V5 row 3. -/
theorem test_V5_3_beq :
    let t := after (load nmosCfg 0x0200 [(0x0200, 0xF0), (0x0201, 0x80)]
      { State.reset with p := .ofByte 0x32 })
    t.pc = 0x0182 ∧ t.cycles = 4 := by decide

/-- 95_test_vectors.md V5 row 4. -/
theorem test_V5_4_bcc :
    let t := after (load nmosCfg 0x0200 [(0x0200, 0x90), (0x0201, 0xFE)]
      State.reset)
    t.pc = 0x0200 ∧ t.cycles = 3 := by decide

/-- 95_test_vectors.md V5 row 5. -/
theorem test_V5_5_bcs :
    let t := after (load nmosCfg 0x0200 [(0x0200, 0xB0), (0x0201, 0x10)]
      State.reset)
    t.pc = 0x0202 ∧ t.cycles = 2 := by decide

/-- 95_test_vectors.md V5 row 6. -/
theorem test_V5_6_bmi :
    let t := after (load nmosCfg 0x0200 [(0x0200, 0x30), (0x0201, 0x02)]
      { State.reset with p := .ofByte 0xB0 })
    t.pc = 0x0204 ∧ t.cycles = 3 := by decide

/-- 95_test_vectors.md V5 row 7. -/
theorem test_V5_7_bpl :
    let t := after (load nmosCfg 0x02F0 [(0x02F0, 0x10), (0x02F1, 0x7F)]
      State.reset)
    t.pc = 0x0371 ∧ t.cycles = 4 := by decide

/-- 95_test_vectors.md V5 row 8. -/
theorem test_V5_8_bvc :
    let t := after (load nmosCfg 0x0200 [(0x0200, 0x50), (0x0201, 0x04)]
      State.reset)
    t.pc = 0x0206 ∧ t.cycles = 3 := by decide

/-- 95_test_vectors.md V5 row 9. -/
theorem test_V5_9_bvs :
    let t := after (load nmosCfg 0x0200 [(0x0200, 0x70), (0x0201, 0x04)]
      State.reset)
    t.pc = 0x0202 ∧ t.cycles = 2 := by decide

/-- 95_test_vectors.md V5 row 11. -/
theorem test_V5_11_bra :
    let t := after (load cmosCfg 0x0200 [(0x0200, 0x80), (0x0201, 0xFE)]
      State.reset)
    t.pc = 0x0200 ∧ t.cycles = 3 := by decide

/-- 95_test_vectors.md V5 row 13. -/
theorem test_V5_13_jmpAbs :
    let t := after (load nmosCfg 0x0200 [(0x0200, 0x4C), (0x0201, 0x34), (0x0202, 0x12)]
      State.reset)
    t.pc = 0x1234 ∧ t.cycles = 3 := by decide

/-- 95_test_vectors.md V5 row 14. -/
theorem test_V5_14_jmpInd :
    let t := after (load nmosCfg 0x0200 [(0x0200, 0x6C), (0x0201, 0xFF), (0x0202, 0x10), (0x10FF, 0x34), (0x1000, 0x12), (0x1100, 0x56)]
      State.reset)
    t.pc = 0x1234 ∧ t.cycles = 5 := by decide

/-- 95_test_vectors.md V5 row 15. -/
theorem test_V5_15_jmpInd :
    let t := after (load cmosCfg 0x0200 [(0x0200, 0x6C), (0x0201, 0xFF), (0x0202, 0x10), (0x10FF, 0x34), (0x1000, 0x12), (0x1100, 0x56)]
      State.reset)
    t.pc = 0x5634 ∧ t.cycles = 6 := by decide

/-- 95_test_vectors.md V5 row 16. -/
theorem test_V5_16_jmpIax :
    let t := after (load cmosCfg 0x0200 [(0x0200, 0x7C), (0x0201, 0x00), (0x0202, 0x30), (0x3004, 0x78), (0x3005, 0x56)]
      { State.reset with x := 0x04 })
    t.pc = 0x5678 ∧ t.cycles = 6 := by decide

/-- 95_test_vectors.md V5 row 17. -/
theorem test_V5_17_jsr :
    let t := after (load nmosCfg 0x0200 [(0x0200, 0x20), (0x0201, 0x00), (0x0202, 0x08)]
      State.reset)
    t.pc = 0x0800 ∧ t.sp = 0xFD ∧ t.read 0x01FE = 0x02 ∧ t.read 0x01FF = 0x02 ∧ t.cycles = 6 := by decide

/-- 95_test_vectors.md V5 row 19. -/
theorem test_V5_19_rts :
    let t := after (load nmosCfg 0x0200 [(0x0200, 0x60), (0x01FE, 0x02), (0x01FF, 0x06)]
      { State.reset with sp := 0xFD })
    t.pc = 0x0603 ∧ t.sp = 0xFF ∧ t.cycles = 6 := by decide

/-- 95_test_vectors.md V6 row 1. -/
theorem test_V6_1_pha :
    let t := after (load nmosCfg 0x0200 [(0x0200, 0x48)]
      { State.reset with a := 0x5A })
    t.pc = 0x0201 ∧ t.sp = 0xFE ∧ t.read 0x01FF = 0x5A ∧ t.cycles = 3 := by decide

/-- 95_test_vectors.md V6 row 2. -/
theorem test_V6_2_php :
    let t := after (load nmosCfg 0x0200 [(0x0200, 0x08)]
      { State.reset with p := .ofByte 0x21 })
    t.pc = 0x0201 ∧ t.sp = 0xFE ∧ t.read 0x01FF = 0x31 ∧ t.cycles = 3 := by decide

/-- 95_test_vectors.md V6 row 3. -/
theorem test_V6_3_phx :
    let t := after (load cmosCfg 0x0200 [(0x0200, 0xDA)]
      { State.reset with x := 0x11, sp := 0x80 })
    t.pc = 0x0201 ∧ t.sp = 0x7F ∧ t.read 0x0180 = 0x11 ∧ t.cycles = 3 := by decide

/-- 95_test_vectors.md V6 row 4. -/
theorem test_V6_4_phy :
    let t := after (load cmosCfg 0x0200 [(0x0200, 0x5A)]
      { State.reset with y := 0x22, sp := 0x00 })
    t.pc = 0x0201 ∧ t.sp = 0xFF ∧ t.read 0x0100 = 0x22 ∧ t.cycles = 3 := by decide

/-- 95_test_vectors.md V6 row 5. -/
theorem test_V6_5_pla :
    let t := after (load nmosCfg 0x0200 [(0x0200, 0x68), (0x01FF, 0x80)]
      { State.reset with sp := 0xFE })
    t.pc = 0x0201 ∧ t.sp = 0xFF ∧ t.a = 0x80 ∧ t.p.toByte = 0xB0 ∧ t.cycles = 4 := by decide

/-- 95_test_vectors.md V6 row 6. -/
theorem test_V6_6_plp :
    let t := after (load nmosCfg 0x0200 [(0x0200, 0x28), (0x01FF, 0xC3)]
      { State.reset with sp := 0xFE })
    t.pc = 0x0201 ∧ t.sp = 0xFF ∧ t.p.toByte = 0xF3 ∧ t.cycles = 4 := by decide

/-- 95_test_vectors.md V6 row 8. -/
theorem test_V6_8_plx :
    let t := after (load cmosCfg 0x0200 [(0x0200, 0xFA), (0x01FF, 0x00)]
      { State.reset with sp := 0xFE })
    t.pc = 0x0201 ∧ t.sp = 0xFF ∧ t.p.toByte = 0x32 ∧ t.cycles = 4 := by decide

/-- 95_test_vectors.md V6 row 9. -/
theorem test_V6_9_ply :
    let t := after (load cmosCfg 0x0200 [(0x0200, 0x7A), (0x0100, 0xFF)]
      { State.reset with sp := 0xFF })
    t.pc = 0x0201 ∧ t.sp = 0x00 ∧ t.y = 0xFF ∧ t.p.toByte = 0xB0 ∧ t.cycles = 4 := by decide

/-- 95_test_vectors.md V6 row 10. -/
theorem test_V6_10_clc :
    let t := after (load nmosCfg 0x0200 [(0x0200, 0x18)]
      { State.reset with p := .ofByte 0x31 })
    t.pc = 0x0201 ∧ t.p.toByte = 0x30 ∧ t.cycles = 2 := by decide

/-- 95_test_vectors.md V6 row 11. -/
theorem test_V6_11_sec :
    let t := after (load nmosCfg 0x0200 [(0x0200, 0x38)]
      State.reset)
    t.pc = 0x0201 ∧ t.p.toByte = 0x31 ∧ t.cycles = 2 := by decide

/-- 95_test_vectors.md V6 row 12. -/
theorem test_V6_12_cli :
    let t := after (load nmosCfg 0x0200 [(0x0200, 0x58)]
      { State.reset with p := .ofByte 0x34 })
    t.pc = 0x0201 ∧ t.p.toByte = 0x30 ∧ t.cycles = 2 := by decide

/-- 95_test_vectors.md V6 row 13. -/
theorem test_V6_13_sei :
    let t := after (load nmosCfg 0x0200 [(0x0200, 0x78)]
      State.reset)
    t.pc = 0x0201 ∧ t.p.toByte = 0x34 ∧ t.cycles = 2 := by decide

/-- 95_test_vectors.md V6 row 14. -/
theorem test_V6_14_cld :
    let t := after (load nmosCfg 0x0200 [(0x0200, 0xD8)]
      { State.reset with p := .ofByte 0x38 })
    t.pc = 0x0201 ∧ t.p.toByte = 0x30 ∧ t.cycles = 2 := by decide

/-- 95_test_vectors.md V6 row 15. -/
theorem test_V6_15_sed :
    let t := after (load nmosCfg 0x0200 [(0x0200, 0xF8)]
      State.reset)
    t.pc = 0x0201 ∧ t.p.toByte = 0x38 ∧ t.cycles = 2 := by decide

/-- 95_test_vectors.md V6 row 16. -/
theorem test_V6_16_clv :
    let t := after (load nmosCfg 0x0200 [(0x0200, 0xB8)]
      { State.reset with p := .ofByte 0x70 })
    t.pc = 0x0201 ∧ t.p.toByte = 0x30 ∧ t.cycles = 2 := by decide

/-- 95_test_vectors.md V6 row 17. -/
theorem test_V6_17_nop :
    let t := after (load nmosCfg 0x0200 [(0x0200, 0xEA)]
      State.reset)
    t.pc = 0x0201 ∧ t.cycles = 2 := by decide

/-- 95_test_vectors.md V7 row 1. -/
theorem test_V7_1_brk :
    let t := after (load nmosCfg 0xC000 [(0xC000, 0x00), (0xFFFE, 0xCD), (0xFFFF, 0xAB)]
      { State.reset with p := .ofByte 0x20 })
    t.pc = 0xABCD ∧ t.sp = 0xFC ∧ t.p.toByte = 0x34 ∧ t.read 0x01FD = 0x30 ∧ t.read 0x01FE = 0x02 ∧ t.read 0x01FF = 0xC0 ∧ t.cycles = 7 := by decide

/-- 95_test_vectors.md V7 row 5. -/
theorem test_V7_5_rti :
    let t := after (load nmosCfg 0x0200 [(0x0200, 0x40), (0x01FD, 0xE3), (0x01FE, 0x02), (0x01FF, 0xC0)]
      { State.reset with sp := 0xFC })
    t.pc = 0xC002 ∧ t.sp = 0xFF ∧ t.p.toByte = 0xF3 ∧ t.cycles = 6 := by decide

/-- 95_test_vectors.md V7 row 7. -/
theorem test_V7_7_wai :
    let t := after (load cmosCfg 0x0200 [(0x0200, 0xCB)]
      State.reset)
    t.pc = 0x0201 ∧ t.waiting = true ∧ t.cycles = 3 := by decide

/-- 95_test_vectors.md V9 row 1. -/
theorem test_V9_1_bbr0 :
    let t := after (load wdcCfg 0x0400 [(0x0400, 0x0F), (0x0401, 0x10), (0x0402, 0x05), (0x0010, 0xFE)]
      State.reset)
    t.pc = 0x0408 ∧ t.cycles = 6 := by decide

/-- 95_test_vectors.md V9 row 3. -/
theorem test_V9_3_bbs7 :
    let t := after (load wdcCfg 0x0400 [(0x0400, 0xFF), (0x0401, 0x10), (0x0402, 0xFB), (0x0010, 0x80)]
      State.reset)
    t.pc = 0x03FE ∧ t.cycles = 7 := by decide

/-- R270 to R286: each BBRn and BBSn tests its own bit: with only bit n of the byte set, BBSn branches and BBRn does not. -/
theorem test_bit_branches_test_their_bit :
    let target := fun row : BitRow =>
      match exec row.instr (load wdcCfg 0x0400 [(0x0010, 1#8 <<< row.bit)] State.reset) with
      | .next t => t.pc
      | _ => 0
    (bbrRows 0x10 0x05).map target = List.replicate 8 0x0403 ∧
      (bbsRows 0x10 0x05).map target = List.replicate 8 0x0408 := by decide

/-- R200 to R215: each RMBn clears and each SMBn sets its own bit of 0x5A. -/
theorem test_bit_operations_change_their_bit :
    let stored := fun row : BitRow =>
      match exec row.instr (load wdcCfg 0x0400 [(0x0010, 0x5A)] State.reset) with
      | .next t => t.read 0x0010
      | _ => 0
    (rmbRows 0x10).map stored = [0x5A, 0x58, 0x5A, 0x52, 0x4A, 0x5A, 0x1A, 0x5A] ∧
      (smbRows 0x10).map stored = [0x5B, 0x5A, 0x5E, 0x5A, 0x5A, 0x7A, 0x5A, 0xDA] := by decide

/-- R288 (95_test_vectors.md V9 row 6): STP, then a step that changes nothing. -/
theorem test_stp :
    let t := after (load wdcCfg 0x0200 [(0x0200, 0xDB), (0x0201, 0xEA)] State.reset)
    t.pc = 0x0201 ∧ t.stopped = true ∧ t.cycles = 3 ∧ after t = t := by decide

/-- R92, R301: the permissive policy skips an undefined byte; the strict one records the fault. -/
theorem test_illegal_opcode :
    let s := load nmosCfg 0x0200 [(0x0200, 0x80)] State.reset
    let p := { s with cfg := { s.cfg with illegalPolicy := .permissive } }
    (after s).fault = some ⟨.invalidOpcode, 0x80, 0x0200⟩ ∧ (after s).pc = 0x0201 ∧ (after s).cycles = 0 ∧
      (after p).fault = none ∧ (after p).pc = 0x0201 ∧ (after p).cycles = 2 := by decide

/-- R313 (92_eei_decisions.md and R314): NMI goes first and leaves an asserted IRQ line pending. -/
theorem test_nmi_before_irq :
    let s := { load nmosCfg 0x0200 [(0xFFFA, 0x00), (0xFFFB, 0x90), (0xFFFE, 0x00), (0xFFFF, 0x80)] State.reset with
      nmiPending := true, irqLine := true }
    (after s).pc = 0x9000 ∧ (after s).nmiPending = false ∧ (after s).irqLine = true ∧ (after s).read 0x01FD = 0x20 := by
  decide

/-- 95_test_vectors.md E4: reset loads PC from the vector, or from START_PC. -/
theorem test_reset :
    let s := load nmosCfg 0x1234 [(0xFFFC, 0x00), (0xFFFD, 0x80)] State.reset
    s.doReset.pc = 0x8000 ∧ s.doReset.p.toByte = 0x30 ∧
      ({ s with cfg := { s.cfg with resetPcSource := .fixed 0x0400 } } : State).doReset.pc = 0x0400 := by decide

/-- R300, R346: an undefined byte under the strict policy, and STP: the predicate accepts the state after it, but it is
stuck and no end of the run; under the permissive policy it is one. -/
theorem test_stuck_is_no_end :
    let s := load nmosCfg 0x0200 [(0x0200, 0x80)] State.reset
    let p := { s with cfg := { s.cfg with illegalPolicy := .permissive } }
    let stp := load wdcCfg 0x0200 [(0x0200, 0xDB)] State.reset
    s.runUntil (fun _ t => t.pc == 0x0201) 2 = none ∧ (p.runUntil (fun _ t => t.pc == 0x0201) 2).isSome = true ∧
      stp.runUntil (fun _ t => t.pc == 0x0201) 2 = none := by decide

/-- R82: an undefined opcode has a length under the permissive policy only. -/
theorem test_instruction_length :
    instructionLength cmosCfg 0xBD = some 3 ∧ instructionLength { nmosCfg with illegalPolicy := .strict } 0x80 = none ∧
      instructionLength { nmosCfg with illegalPolicy := .permissive } 0x80 = some 1 := by decide

/-- R346: a run ends at the first state the predicate accepts: both of the rule's examples, PC at an address, and a number
of steps taken. -/
theorem test_run :
    let s := load cmosCfg 0x0200 [(0x0200, 0xA9), (0x0201, 0x42), (0x0202, 0x85), (0x0203, 0x10)] State.reset
    (s.runUntil (fun _ t => t.pc == 0x0204) 2).map (fun t => (t.a, t.read 0x0010, t.cycles)) = some (0x42, 0x42, 5) ∧
      (s.runUntil (fun n _ => n == 1) 2).map (fun t => (t.pc, t.read 0x0010)) = some (0x0202, 0x00) := by decide

/-! ### Witnesses: the hypotheses of each obligation can be met -/

theorem test_witness_DecodeOfEncodeIsTheInstruction :
    (Instr.ldaAbsx 0xFFFF).wellFormed nmosCfg = true ∧ (Instr.bbs7 0xFF 0x80).wellFormed wdcCfg = true := by decide

theorem test_witness_EncodeOfDecodeIsTheBytes :
    decodeBytes nmosCfg [0xBD, 0xFF, 0xFF, 0x60] = .ok (.ldaAbsx 0xFFFF, [0x60]) ∧
      decodeBytes cmosCfg [0xCB] = .ok (.wai, []) := ⟨rfl, rfl⟩

theorem test_witness_TablesNestAndCount : nmosCfg.variant = .nmos ∧ decode nmosCfg 0x6C 0xFF 0x00 = .ok (.jmpInd 0x00FF) :=
  ⟨rfl, rfl⟩

/-- A state about to run the NOP at 0x0200, awake. -/
def runState : State := load cmosCfg 0x0200 [(0x0200, 0xEA)] State.reset

/-- R312: waiting with a masked IRQ asserted: the step runs the instruction. -/
def wokenState : State := { runState with waiting := true, irqLine := true, p := { runState.p with i := true } }

theorem runs_runState : RunsAnInstruction runState := by unfold RunsAnInstruction; decide

theorem runs_wokenState : RunsAnInstruction wokenState := by unfold RunsAnInstruction; decide

theorem test_witness_StepRunsTheDecodedInstruction :
    RunsAnInstruction runState ∧ RunsAnInstruction wokenState ∧
      decode runState.cfg (runState.read runState.pc) (runState.read (runState.pc + 1)) (runState.read (runState.pc + 2)) =
        .ok .nop :=
  ⟨runs_runState, runs_wokenState, rfl⟩

/-- A state about to fetch 0x80 on NMOS, which has no descriptor there. -/
def illegalState (policy : IllegalPolicy) : State :=
  load { nmosCfg with illegalPolicy := policy } 0xFFFF [(0xFFFF, 0x80)] State.reset

theorem test_witness_IllegalOpcodeFaultsOrSkips (policy : IllegalPolicy) :
    RunsAnInstruction (illegalState policy) ∧
      descriptor (illegalState policy).cfg ((illegalState policy).read (illegalState policy).pc) = none ∧
      (illegalState policy).cfg.illegalPolicy = policy := by
  unfold RunsAnInstruction
  cases policy <;> exact ⟨by decide, rfl, rfl⟩

theorem test_witness_StuckCoreStaysUntilReset :
    ({ State.reset with stopped := true } : State).stopped = true ∧
      ({ State.reset with fault := some ⟨.invalidOpcode, 0x80, 0x0200⟩ } : State).fault ≠ none := by decide

theorem test_witness_WaitingCoreWakesOnRequest :
    let s := { State.reset with waiting := true }
    (s.fault = none ∧ s.stopped = false ∧ s.waiting = true ∧ s.nmiPending = false ∧ s.irqLine = false) ∧
      (wokenState.fault = none ∧ wokenState.stopped = false ∧ wokenState.waiting = true ∧ wokenState.irqLine = true) := by
  decide

theorem test_witness_InterruptEntrySavesAndVectors :
    let nmi := { State.reset with nmiPending := true, p := { State.reset.p with i := true } }
    let irq := { State.reset with irqLine := true, sp := 0x00 }
    (nmi.fault = none ∧ nmi.stopped = false ∧ nmi.nmiPending = true) ∧
      (irq.fault = none ∧ irq.stopped = false ∧ irq.nmiPending = false ∧ irq.irqLine = true ∧ irq.p.i = false) := by
  decide

theorem inv_reset : Inv State.reset := by
  refine ⟨Memory.wf_nil, fun _ => rfl, fun h => absurd h (by decide), fun f h => ?_⟩
  cases h

theorem test_witness_StepKeepsInvariant : Inv State.reset ∧ ∃ t, step State.reset = .next t := ⟨inv_reset, _, rfl⟩

theorem test_witness_ResetMeetsInvariant : Memory.wf [(0x0000, 0x01), (0xFFFF, 0xFF)] := by decide

theorem test_witness_EqualBytesAreEqualMemories :
    let m : Memory := [(0x0000, 0x01), (0xFFFF, 0xFF)]
    m.wf ∧ ∀ a, a < 65536 → m.read a = m.read a := ⟨by decide, fun _ _ => rfl⟩

/-- ControlStateChangesOnlyByItsWriters, CyclesGrowByBaseAndExtra, NothingDependsOnCycles, NothingDependsOnBreakFlag, and the
four statements on who writes flags, registers, memory and PC: instructions and a step that answer a next state. -/
theorem test_witness_exec_and_step_answer :
    (∃ t, exec (.ldaAbsx 0xFFFF) runState = .next t) ∧ (∃ t, exec .wai runState = .next t) ∧
      (∃ t, exec .stp runState = .next t) ∧ ∃ t, step runState = .next t := ⟨⟨_, rfl⟩, ⟨_, rfl⟩, ⟨_, rfl⟩, _, rfl⟩

/-- ControlStateChangesOnlyByItsWriters, and the clauses of the three writer lists: each has an instruction outside it. -/
theorem test_witness_writer_lists :
    mnemonicOf .nop ≠ "WAI" ∧ mnemonicOf .nop ≠ "STP" ∧
      mnemonicOf .nop ∉ ["ADC", "SBC", "AND", "ORA", "EOR", "LDA", "LDX", "LDY", "TAX", "TAY", "TXA", "TYA", "TSX", "PLA",
        "PLX", "PLY", "INC", "DEC", "INX", "INY", "DEX", "DEY", "CMP", "CPX", "CPY", "ASL", "LSR", "ROL", "ROR",
        "BIT", "TSB", "TRB", "PLP", "RTI", "CLV", "CLC", "SEC", "CLD", "SED", "CLI", "SEI", "BRK"] ∧
      (mnemonicOf (.bitImm 0xFF) = "BIT" ∧ modeOf (.bitImm 0xFF) = .imm) ∧
      (mnemonicOf .nop ∉ ["LDA", "PLA", "TXA", "TYA", "ADC", "SBC", "AND", "ORA", "EOR"] ∧ modeOf .nop ≠ .acc) ∧
      mnemonicOf .nop ∉ ["LDX", "TAX", "TSX", "INX", "DEX", "PLX", "LDY", "TAY", "INY", "DEY", "PLY", "TXS", "PHA", "PHP",
        "PHX", "PHY", "PLA", "PLP", "JSR", "RTS", "BRK", "RTI"] := by decide

/-- MemoryChangesOnlyByItsWriters and SequentialInstructionsAdvancePC: a shift of A, and a load. -/
theorem test_witness_memory_and_pc :
    (mnemonicOf .aslAcc ∉ ["STA", "STX", "STY", "STZ", "TSB", "TRB", "PHA", "PHP", "PHX", "PHY", "JSR", "BRK",
        "RMB0", "RMB1", "RMB2", "RMB3", "RMB4", "RMB5", "RMB6", "RMB7",
        "SMB0", "SMB1", "SMB2", "SMB3", "SMB4", "SMB5", "SMB6", "SMB7"] ∧
      mnemonicOf .aslAcc ∈ ["ASL", "LSR", "ROL", "ROR", "INC", "DEC"] ∧ modeOf .aslAcc = .acc) ∧
      mnemonicOf (.ldaAbs 0xFFFF) ∉ ["BCC", "BCS", "BEQ", "BNE", "BMI", "BPL", "BVC", "BVS", "BRA", "JMP", "JSR", "RTS",
        "BRK", "RTI", "BBR0", "BBR1", "BBR2", "BBR3", "BBR4", "BBR5", "BBR6", "BBR7",
        "BBS0", "BBS1", "BBS2", "BBS3", "BBS4", "BBS5", "BBS6", "BBS7"] := by decide

theorem test_witness_EffectiveAddresses : (Operand.absx 0xFFFF).mode ≠ .imm ∧ (Operand.zpi 0xFF).mode ≠ .imm := by decide

/-- PageCrossCostsOneCycle: sensitive opcodes at the last address before a cross and the first across, a mode that is never
charged, and the reference set. -/
theorem test_witness_PageCrossCostsOneCycle :
    let s := { State.reset with x := 0x01, y := 0x01 }
    pageCrossSensitive s.cfg 0xBD = true ∧ (0x12FE + s.x.toNat) % 65536 / 256 = 0x12FE / 256 ∧
      (0x12FF + s.x.toNat) % 65536 / 256 ≠ 0x12FF / 256 ∧ pageCrossSensitive s.cfg 0x9D = false ∧
      (Operand.zpx 0xFF).mode ∉ [Mode.absx, .absy, .indy] ∧ s.cfg.pageCrossSet = .reference := by decide

/-- BinaryAddMatchesIntegers, BinarySubtractMatchesIntegers: both sides of the carry and overflow bounds. -/
theorem test_witness_binary_alu :
    (0x7F : Byte).toInt + (0x00 : Byte).toInt + (true.toNat : Int) > 127 ∧ (0x7F : Byte).toInt + (0x00 : Byte).toInt ≤ 127 ∧
      (0xFF : Byte).toNat + (0x00 : Byte).toNat + true.toNat = 256 ∧
      (0x80 : Byte).toInt - (0x01 : Byte).toInt - (1 - (true.toNat : Int)) < -128 := by decide

/-- DecimalAddLaw, DecimalSubtractLaw: valid BCD at its ends, and the sums the second clauses name, at a corrected low
nibble and at a high sum of exactly 160. -/
theorem test_witness_decimal_laws :
    (validBcd 0x00 = true ∧ validBcd 0x99 = true ∧ validBcd 0x9A = false) ∧
      (¬(0x95 : Byte).toNat % 16 + (0x05 : Byte).toNat % 16 + false.toNat < 10 ∧
        (0x95 : Byte).toNat / 16 * 16 + (0x05 : Byte).toNat / 16 * 16 + ((5 + 5 + 6) % 16 + 16) = 160 ∧
        (0x95 : Byte).toInt / 16 * 16 + (0x05 : Byte).toInt / 16 * 16 + 16 = -96) ∧
      (((0x00 : Byte).toNat % 16 : Nat) - ((0x01 : Byte).toNat % 16 : Nat) + (true.toNat : Int) - 1 = -1 ∧
        ((-1 - 6 : Int) % 16 - 16 = -7)) := by decide

/-- The statements over a list of operand forms: each list has the table's number of forms, and an operand has a value. -/
theorem test_witness_forms :
    (ldaForms 0x80 0xFFFF).length = 9 ∧ (ldxForms 0x80 0xFFFF).length = 5 ∧ (ldyForms 0x80 0xFFFF).length = 5 ∧
      (staForms 0x80 0xFFFF).length = 8 ∧ (stxForms 0x80 0xFFFF).length = 3 ∧ (styForms 0x80 0xFFFF).length = 3 ∧
      (stzForms 0x80 0xFFFF).length = 4 ∧ (adcForms 0x80 0xFFFF).length = 9 ∧ (sbcForms 0x80 0xFFFF).length = 9 ∧
      (cmpForms 0x80 0xFFFF).length = 9 ∧ (cpxForms 0x80 0xFFFF).length = 3 ∧ (cpyForms 0x80 0xFFFF).length = 3 ∧
      (andForms 0x80 0xFFFF).length = 9 ∧ (oraForms 0x80 0xFFFF).length = 9 ∧ (eorForms 0x80 0xFFFF).length = 9 ∧
      (incMemoryForms 0x80 0xFFFF).length = 4 ∧ (decMemoryForms 0x80 0xFFFF).length = 4 ∧
      (bitMemoryForms 0x80 0xFFFF).length = 4 ∧ (aslMemoryForms 0x80 0xFFFF).length = 4 ∧
      (lsrMemoryForms 0x80 0xFFFF).length = 4 ∧ (rolMemoryForms 0x80 0xFFFF).length = 4 ∧
      (rorMemoryForms 0x80 0xFFFF).length = 4 ∧ (tsbForms 0x80 0xFFFF).length = 2 ∧ (trbForms 0x80 0xFFFF).length = 2 ∧
      (rmbRows 0x80).length = 8 ∧ (smbRows 0x80).length = 8 ∧ (bbrRows 0x80 0x80).length = 8 ∧
      (bbsRows 0x80 0x80).length = 8 ∧ (optionalNops 0x80 0xFFFF).length = 44 ∧
      (Operand.imm 0x80).value State.reset = 0x80 := by decide

/-- AdcAddsWithCarry, SbcSubtractsWithBorrow: the four arms of the choice of ALU function. -/
theorem test_witness_decimal_choice :
    let impl := { cmosCfg with decimalNonBcd := .implementation }
    State.reset.p.d = false ∧ ({ State.reset.p with d := true } : Status).d ≠ false ∧
      (impl.decimalNonBcd = .implementation ∧ ¬(validBcd 0x0A = true ∧ validBcd 0x00 = true)) ∧
      nmosCfg.variant = .nmos ∧ cmosCfg.variant ≠ .nmos := by decide

/-- ShiftsMoveMemory, BitTestsMemory, ComparesSetCarryZeroNegative: the operand byte the statement names. -/
theorem test_witness_operand_values :
    let s := load cmosCfg 0x0200 [(0x0080, 0x81)] State.reset
    ((Operand.zpg 0x80).value s).toNat = 0x81 ∧ (Operand.zpg 0x80).value s = 0x81 := by decide

/-- BranchesGoToTarget, BitBranchesGoToTarget: offsets 0x7F and 0x80, a target in the same page and one across. -/
theorem test_witness_branches :
    let s := load cmosCfg 0x0200 [] State.reset
    (s.cfg.cycleTable = .reference) ∧ s.cfg.variant = .cmos ∧ Availability.cmos.definedIn s.cfg = true ∧
      (0x0281 : Addr) = BitVec.ofInt 16 (s.pc.toNat + 2 + (0x7F : Byte).toInt) ∧ 0x0281 / 256 = (s.pc + 2).toNat / 256 ∧
      (0x0182 : Addr) = BitVec.ofInt 16 (s.pc.toNat + 2 + (0x80 : Byte).toInt) ∧ 0x0182 / 256 ≠ (s.pc + 2).toNat / 256 ∧
      (0x0183 : Addr) = BitVec.ofInt 16 (s.pc.toNat + 3 + (0x80 : Byte).toInt) := by decide

theorem test_witness_JumpsSetPC :
    (load nmosCfg 0x0200 [] State.reset).cfg.variant = .nmos ∧ (load cmosCfg 0x0200 [] State.reset).cfg.variant = .cmos := by
  decide

/-- PullsReadOneByte, RtiRestoresStatusAndPC: a byte on the stack at the wrap of SP. -/
theorem test_witness_pulls :
    let s := load cmosCfg 0x0200 [(0x0100, 0xC3)] State.reset
    s.read (stackCell (s.sp + 1)) = 0xC3 := by decide

end Sys2Proof.Tests
end

