-- ==== Sys2Proof/Proofs/TableScope.lean ====
section
/-! PROOF. Which opcode bytes a configuration defines (00_scope.md R7; 30_encoding.md R84 to R86), and how the tables
nest. Whether a byte is defined depends on its row's availability alone, so one count of the rows by availability gives
the count for every configuration. -/

namespace Sys2Proof.Proofs

/-! ### The descriptor and the decoder, by the table's entry -/

theorem descriptor_eq_some_iff {cfg : Config} {op : Byte} {d : Descriptor} :
    descriptor cfg op = some d ↔ tableEntry op = some d ∧ d.avail.definedIn cfg = true := by
  simp [descriptor, Option.filter_eq_some_iff]

theorem descriptor_isSome (cfg : Config) (op : Byte) :
    (descriptor cfg op).isSome = (tableEntry op).any (·.avail.definedIn cfg) := by
  simp [descriptor]

theorem decode_eq_ok_iff {cfg : Config} {op b1 b2 : Byte} {i : Instr} :
    decode cfg op b1 b2 = .ok i ↔ ∃ d, descriptor cfg op = some d ∧ d.build b1 b2 = i := by
  unfold decode
  cases descriptor cfg op <;> simp

/-! ### The table in opcode order is its rows, one after the other -/

theorem map_getElem?_range_length {α : Type} (l : List α) : (List.range l.length).map (l[·]?) = l.map some := by
  apply List.ext_getElem <;> simp

/-- Rows of one width `w`, looked up by quotient and remainder, are read off in order. -/
theorem map_div_mod_range_mul {α : Type} {w : Nat} (hw : 0 < w) {rows : List (List α)}
    (hlen : ∀ row ∈ rows, row.length = w) :
    (List.range (w * rows.length)).map (fun n => (rows[n / w]?).bind fun row => row[n % w]?) =
      rows.flatten.map some := by
  induction rows with
  | nil => rfl
  | cons row rows ih =>
    obtain ⟨hrow, hrows⟩ := List.forall_mem_cons.mp hlen
    have hfirst : (List.range w).map (fun n => ((row :: rows)[n / w]?).bind fun row => row[n % w]?) =
        row.map some := by
      rw [← map_getElem?_range_length, hrow]
      refine List.map_congr_left fun n hn => ?_
      have hlt : n < w := List.mem_range.mp hn
      simp [Nat.div_eq_of_lt hlt, Nat.mod_eq_of_lt hlt]
    rw [List.length_cons, Nat.mul_succ, Nat.add_comm, List.range_add, List.map_append, hfirst, List.map_map,
      List.flatten_cons, List.map_append, ← ih hrows]
    simp [Function.comp_def, Nat.add_div_left _ hw]

theorem map_tableEntry_range :
    (List.range 256).map (fun n => tableEntry (BitVec.ofNat 8 n)) = opcodeRows.flatten.map some := by
  rw [← map_div_mod_range_mul (w := 16) (by decide) (by decide)]
  refine List.map_congr_left fun n hn => ?_
  rw [tableEntry, BitVec.toNat_ofNat, Nat.mod_eq_of_lt (List.mem_range.mp hn)]

/-! ### How many opcode bytes each table defines -/

/-- The availability of each opcode byte, from 0x00 to 0xFF. -/
def tableAvailabilities : List Availability := opcodeRows.flatten.map (·.avail)

/-- R84 lists 151 opcodes, R85 adds 42, and R86 the 63 that remain of 256. -/
theorem count_tableAvailabilities :
    tableAvailabilities.count .both = 151 ∧ tableAvailabilities.count .cmos = 42 ∧
      tableAvailabilities.count .wdc = 63 := by
  simp only [tableAvailabilities, List.map_flatten, List.count_flatten]
  decide

theorem countP_availability (p : Availability → Bool) (l : List Availability) :
    l.countP p =
      (if p .both then l.count .both else 0) + (if p .cmos then l.count .cmos else 0) +
        (if p .wdc then l.count .wdc else 0) := by
  induction l with
  | nil => simp
  | cons av l ih =>
    rw [List.countP_cons, ih]
    cases av <;> simp <;> split_ifs <;> omega

theorem length_filter_descriptor (cfg : Config) :
    ((List.range 256).filter fun n => (descriptor cfg (BitVec.ofNat 8 n)).isSome).length =
      tableAvailabilities.countP (·.definedIn cfg) := by
  calc ((List.range 256).filter fun n => (descriptor cfg (BitVec.ofNat 8 n)).isSome).length
    _ = ((List.range 256).map fun n => tableEntry (BitVec.ofNat 8 n)).countP (Option.any (·.avail.definedIn cfg)) := by
      simp only [descriptor_isSome, ← List.countP_eq_length_filter, List.countP_map, Function.comp_def]
    _ = tableAvailabilities.countP (·.definedIn cfg) := by
      simp only [map_tableEntry_range, tableAvailabilities, List.countP_map, Function.comp_def, Option.any_some]

theorem countP_definedIn (cfg : Config) :
    tableAvailabilities.countP (·.definedIn cfg) =
      match cfg.variant with
      | .nmos => 151
      | .cmos => if cfg.wdcExtras then 256 else 193 := by
  obtain ⟨hboth, hcmos, hwdc⟩ := count_tableAvailabilities
  rw [countP_availability, hboth, hcmos, hwdc]
  cases hv : cfg.variant with
  | nmos => simp [Availability.definedIn, hv]
  | cmos => cases hw : cfg.wdcExtras <;> simp [Availability.definedIn, hv, hw]

/-! ### The NMOS table is part of the CMOS table -/

theorem definedIn_nmos {cfg : Config} {av : Availability} (hv : cfg.variant = .nmos) :
    av.definedIn cfg = true ↔ av = .both := by
  cases av <;> simp [Availability.definedIn, hv]

theorem descriptor_cmos_of_nmos {cfg : Config} {op : Byte} {d : Descriptor} (hv : cfg.variant = .nmos)
    (hd : descriptor cfg op = some d) : descriptor { cfg with variant := .cmos } op = some d := by
  obtain ⟨hrow, hdef⟩ := descriptor_eq_some_iff.mp hd
  have hav : d.avail = .both := (definedIn_nmos hv).mp hdef
  exact descriptor_eq_some_iff.mpr ⟨hrow, by rw [hav]; rfl⟩

theorem decode_cmos_of_nmos {cfg : Config} {op b1 b2 : Byte} {i : Instr} (hv : cfg.variant = .nmos)
    (hi : decode cfg op b1 b2 = .ok i) : decode { cfg with variant := .cmos } op b1 b2 = .ok i := by
  obtain ⟨d, hd, hbuild⟩ := decode_eq_ok_iff.mp hi
  exact decode_eq_ok_iff.mpr ⟨d, descriptor_cmos_of_nmos hv hd, hbuild⟩

/-- Settles O4: the counts from one count of the rows by availability, the nesting from NMOS defining only the rows of
both tables. -/
theorem tablesNestAndCount : Obligations.TablesNestAndCount := by
  refine ⟨fun cfg => ?_, fun _ _ _ _ _ => decode_cmos_of_nmos⟩
  rw [length_filter_descriptor]
  exact countP_definedIn cfg

end Sys2Proof.Proofs
end

