-- ==== Sys2Proof/Proofs/StateRules.lean ====
section
/-! PROOF. Rules about the whole state (10_state.md): what nothing reads back (R28, R31), which registers and flags an
instruction can change (R24, R29), the status register as a byte (R26, R27), and the state after reset (R35). The 256
instructions do one of 38 operations, so a rule about all of them is one case per operation. -/

namespace Sys2Proof.Proofs

open Sys2Proof.Machine

/-! ### The operations -/

/-- What an instruction does with its operand: one constructor per operation that instructions share, and one per
instruction that shares its own with no other. -/
inductive Meaning where
  | load (r : Reg) (o : Operand)
  | store (r : Reg) (o : Operand)
  | storeZero (o : Operand)
  | transfer (src dst : Reg)
  | tsx
  | txs
  | adc (o : Operand)
  | sbc (o : Operand)
  | compare (r : Reg) (o : Operand)
  | stepMem (f : Byte → Byte) (o : Operand)
  | stepReg (r : Reg) (f : Byte → Byte)
  | logic (f : Byte → Byte → Byte) (o : Operand)
  | bitMemory (o : Operand) (ho : o.mode ≠ .imm)
  | bitImmediate (v : Byte)
  | shiftAcc (f : Byte → Bool → Shifted)
  | shiftMem (f : Byte → Bool → Shifted) (o : Operand)
  | testAndModify (f : Byte → Byte → Byte) (o : Operand)
  | modifyBit (f : Byte → Byte) (z : Byte)
  | branch (cond : (n v z c : Bool) → Bool) (off : Byte)
  | branchOnBit (n : Nat) (want : Bool) (z off : Byte)
  | jmpAbs (w : Addr)
  | jmpInd (w : Addr)
  | jmpIax (w : Addr)
  | jsr (w : Addr)
  | rts
  | push (r : Reg)
  | php
  | pull (r : Reg)
  | plp
  | putC (v : Bool)
  | putI (v : Bool)
  | putD (v : Bool)
  | clv
  | nop (m : Mode)
  | brk
  | rti
  | wai
  | stp

/-- The operation as the meaning of the instruction with opcode `op`. -/
def Meaning.run (m : Meaning) (op : Byte) (s : State) : Result :=
  match m with
  | .load r o => Machine.load r op o s
  | .store r o => Machine.store (s.reg r) op o s
  | .storeZero o => Machine.store 0x00 op o s
  | .transfer src dst => Machine.transfer (s.reg src) dst op s
  | .tsx => Machine.transfer s.sp .x op s
  | .txs => .next ((s.advance op 1).setSP s.x)
  | .adc o => addSub aluAdd op o s
  | .sbc o => addSub aluSub op o s
  | .compare r o => compareWith r op o s
  | .stepMem f o => Machine.stepMem f op o s
  | .stepReg r f => Machine.stepReg r (f (s.reg r)) op s
  | .logic f o => Machine.logic f op o s
  | .bitMemory o _ => Machine.bitMemory op o s
  | .bitImmediate v => Machine.bitImmediate op v s
  | .shiftAcc f => Machine.shiftAcc f op s
  | .shiftMem f o => Machine.shiftMem f op o s
  | .testAndModify f o => Machine.testAndModify f op o s
  | .modifyBit f z => Machine.modifyBit f op z s
  | .branch cond off => branchIf (cond s.p.n s.p.v s.p.z s.p.c) op off s
  | .branchOnBit n want z off => Machine.branchOnBit n want op z off s
  | .jmpAbs w => jump w op s
  | .jmpInd w => jump (indirectTarget s w) op s
  | .jmpIax w => jump (indexedIndirectTarget s w) op s
  | .jsr w => .next (((s.advance op 3).pushWord ((s.advance op 3).pc - 1)).setPC w)
  | .rts => .next ((s.advance op 1).dropWord.setPC ((s.advance op 1).popWord + 1))
  | .push r => pushByte (s.reg r) op s
  | .php => pushByte s.p.pushed op s
  | .pull r => pullReg r op s
  | .plp => .next ((s.advance op 1).dropByte.setP (.pulled (s.advance op 1).popByte))
  | .putC v => withStatus { s.p with c := v } op s
  | .putI v => withStatus { s.p with i := v } op s
  | .putD v => withStatus { s.p with d := v } op s
  | .clv => withStatus { s.p with v := false } op s
  | .nop m => noOperation op m.length s
  | .brk => .next (((s.advance op 1).setPC ((s.advance op 1).pc + 1)).takeException irqVector s.p.pushed true)
  | .rti => .next (s.advance op 1).returnFromException
  | .wai => .next { s.advance op 1 with waiting := true }
  | .stp => .next { s.advance op 1 with stopped := true }

/-- The addressing mode of an operation's row of the opcode table. -/
def Meaning.mode : Meaning → Mode
  | .load _ o | .store _ o | .storeZero o | .adc o | .sbc o | .compare _ o | .stepMem _ o | .logic _ o
  | .bitMemory o _ | .shiftMem _ o | .testAndModify _ o => o.mode
  | .bitImmediate _ => .imm
  | .shiftAcc _ | .stepReg .a _ => .acc
  | .modifyBit _ _ => .zpg
  | .branch _ _ => .rel
  | .branchOnBit .. => .zrel
  | .jmpAbs _ | .jsr _ => .abs
  | .jmpInd _ => .ind
  | .jmpIax _ => .iax
  | .nop m => m
  | .stepReg _ _ | .transfer _ _ | .tsx | .txs | .rts | .push _ | .php | .pull _ | .plp | .putC _ | .putI _
  | .putD _ | .clv | .brk | .rti | .wai | .stp => .imp

/-- The mnemonics of the instructions that do this operation. -/
def Meaning.mnemonics : Meaning → List String
  | .load .a _ => ["LDA"]
  | .load .x _ => ["LDX"]
  | .load .y _ => ["LDY"]
  | .store .a _ => ["STA"]
  | .store .x _ => ["STX"]
  | .store .y _ => ["STY"]
  | .storeZero _ => ["STZ"]
  | .transfer _ .a => ["TXA", "TYA"]
  | .transfer _ .x => ["TAX"]
  | .transfer _ .y => ["TAY"]
  | .tsx => ["TSX"]
  | .txs => ["TXS"]
  | .adc _ => ["ADC"]
  | .sbc _ => ["SBC"]
  | .compare .a _ => ["CMP"]
  | .compare .x _ => ["CPX"]
  | .compare .y _ => ["CPY"]
  | .stepMem _ _ | .stepReg .a _ => ["INC", "DEC"]
  | .stepReg .x _ => ["INX", "DEX"]
  | .stepReg .y _ => ["INY", "DEY"]
  | .logic _ _ => ["AND", "ORA", "EOR"]
  | .bitMemory _ _ | .bitImmediate _ => ["BIT"]
  | .shiftAcc _ | .shiftMem _ _ => ["ASL", "LSR", "ROL", "ROR"]
  | .testAndModify _ _ => ["TSB", "TRB"]
  | .modifyBit _ _ => ["RMB0", "RMB1", "RMB2", "RMB3", "RMB4", "RMB5", "RMB6", "RMB7",
      "SMB0", "SMB1", "SMB2", "SMB3", "SMB4", "SMB5", "SMB6", "SMB7"]
  | .branch _ _ => ["BCC", "BCS", "BEQ", "BNE", "BMI", "BPL", "BVC", "BVS", "BRA"]
  | .branchOnBit .. => ["BBR0", "BBR1", "BBR2", "BBR3", "BBR4", "BBR5", "BBR6", "BBR7",
      "BBS0", "BBS1", "BBS2", "BBS3", "BBS4", "BBS5", "BBS6", "BBS7"]
  | .jmpAbs _ | .jmpInd _ | .jmpIax _ => ["JMP"]
  | .jsr _ => ["JSR"]
  | .rts => ["RTS"]
  | .push .a => ["PHA"]
  | .push .x => ["PHX"]
  | .push .y => ["PHY"]
  | .php => ["PHP"]
  | .pull .a => ["PLA"]
  | .pull .x => ["PLX"]
  | .pull .y => ["PLY"]
  | .plp => ["PLP"]
  | .putC _ => ["CLC", "SEC"]
  | .putI _ => ["CLI", "SEI"]
  | .putD _ => ["CLD", "SED"]
  | .clv => ["CLV"]
  | .nop _ => ["NOP"]
  | .brk => ["BRK"]
  | .rti => ["RTI"]
  | .wai => ["WAI"]
  | .stp => ["STP"]

/-- The instruction `i` does the operation `m`, and its row of the opcode table is one of `m`'s. -/
structure HasMeaning (i : Instr) (m : Meaning) : Prop where
  exec_eq : ∀ s, exec i s = m.run i.opcode s
  mode_eq : modeOf i = m.mode
  mnemonic_mem : mnemonicOf i ∈ m.mnemonics

/-- `HasMeaning` from the row of a concrete opcode byte; `k` is the place of its mnemonic among the operation's. -/
theorem hasMeaning_of {i : Instr} {m : Meaning} {op : Byte} (k : Nat) (hexec : ∀ s, exec i s = m.run op s)
    (hop : i.opcode = op)
    (hrow : (tableEntry op).map (fun d => (some d.mnemonic, d.mode)) = some (m.mnemonics[k]?, m.mode)) :
    HasMeaning i m := by
  subst hop
  obtain ⟨d, hd, heq⟩ := Option.map_eq_some_iff.mp hrow
  obtain ⟨hmn, hmode⟩ := Prod.mk.inj heq
  refine ⟨hexec, ?_, List.mem_of_getElem? (i := k) ?_⟩
  · rw [modeOf, hd, ← hmode]
  · rw [mnemonicOf, hd, ← hmn]

/-- Every instruction does one of the operations (R89). -/
theorem exists_meaning (i : Instr) : ∃ m, HasMeaning i m := by
  cases i with
  | ldaIndx | ldaZpg | ldaImm | ldaAbs | ldaIndy | ldaZpi | ldaZpx | ldaAbsy | ldaAbsx =>
    exact ⟨.load .a _, hasMeaning_of 0 (fun _ => rfl) rfl rfl⟩
  | ldxImm | ldxZpg | ldxAbs | ldxZpy | ldxAbsy => exact ⟨.load .x _, hasMeaning_of 0 (fun _ => rfl) rfl rfl⟩
  | ldyImm | ldyZpg | ldyAbs | ldyZpx | ldyAbsx => exact ⟨.load .y _, hasMeaning_of 0 (fun _ => rfl) rfl rfl⟩
  | staIndx | staZpg | staAbs | staIndy | staZpi | staZpx | staAbsy | staAbsx =>
    exact ⟨.store .a _, hasMeaning_of 0 (fun _ => rfl) rfl rfl⟩
  | stxZpg | stxAbs | stxZpy => exact ⟨.store .x _, hasMeaning_of 0 (fun _ => rfl) rfl rfl⟩
  | styZpg | styAbs | styZpx => exact ⟨.store .y _, hasMeaning_of 0 (fun _ => rfl) rfl rfl⟩
  | stzZpg | stzZpx | stzAbs | stzAbsx => exact ⟨.storeZero _, hasMeaning_of 0 (fun _ => rfl) rfl rfl⟩
  | txa => exact ⟨.transfer .x .a, hasMeaning_of 0 (fun _ => rfl) rfl rfl⟩
  | tya => exact ⟨.transfer .y .a, hasMeaning_of 1 (fun _ => rfl) rfl rfl⟩
  | tax => exact ⟨.transfer .a .x, hasMeaning_of 0 (fun _ => rfl) rfl rfl⟩
  | tay => exact ⟨.transfer .a .y, hasMeaning_of 0 (fun _ => rfl) rfl rfl⟩
  | tsx => exact ⟨.tsx, hasMeaning_of 0 (fun _ => rfl) rfl rfl⟩
  | txs => exact ⟨.txs, hasMeaning_of 0 (fun _ => rfl) rfl rfl⟩
  | adcIndx | adcZpg | adcImm | adcAbs | adcIndy | adcZpi | adcZpx | adcAbsy | adcAbsx =>
    exact ⟨.adc _, hasMeaning_of 0 (fun _ => rfl) rfl rfl⟩
  | sbcIndx | sbcZpg | sbcImm | sbcAbs | sbcIndy | sbcZpi | sbcZpx | sbcAbsy | sbcAbsx =>
    exact ⟨.sbc _, hasMeaning_of 0 (fun _ => rfl) rfl rfl⟩
  | cmpIndx | cmpZpg | cmpImm | cmpAbs | cmpIndy | cmpZpi | cmpZpx | cmpAbsy | cmpAbsx =>
    exact ⟨.compare .a _, hasMeaning_of 0 (fun _ => rfl) rfl rfl⟩
  | cpxImm | cpxZpg | cpxAbs => exact ⟨.compare .x _, hasMeaning_of 0 (fun _ => rfl) rfl rfl⟩
  | cpyImm | cpyZpg | cpyAbs => exact ⟨.compare .y _, hasMeaning_of 0 (fun _ => rfl) rfl rfl⟩
  | incAcc => exact ⟨.stepReg .a (· + 1), hasMeaning_of 0 (fun _ => rfl) rfl rfl⟩
  | incZpg | incAbs | incZpx | incAbsx => exact ⟨.stepMem (· + 1) _, hasMeaning_of 0 (fun _ => rfl) rfl rfl⟩
  | decAcc => exact ⟨.stepReg .a (· - 1), hasMeaning_of 1 (fun _ => rfl) rfl rfl⟩
  | decZpg | decAbs | decZpx | decAbsx => exact ⟨.stepMem (· - 1) _, hasMeaning_of 1 (fun _ => rfl) rfl rfl⟩
  | inx => exact ⟨.stepReg .x (· + 1), hasMeaning_of 0 (fun _ => rfl) rfl rfl⟩
  | dex => exact ⟨.stepReg .x (· - 1), hasMeaning_of 1 (fun _ => rfl) rfl rfl⟩
  | iny => exact ⟨.stepReg .y (· + 1), hasMeaning_of 0 (fun _ => rfl) rfl rfl⟩
  | dey => exact ⟨.stepReg .y (· - 1), hasMeaning_of 1 (fun _ => rfl) rfl rfl⟩
  | andIndx | andZpg | andImm | andAbs | andIndy | andZpi | andZpx | andAbsy | andAbsx =>
    exact ⟨.logic (· &&& ·) _, hasMeaning_of 0 (fun _ => rfl) rfl rfl⟩
  | oraIndx | oraZpg | oraImm | oraAbs | oraIndy | oraZpi | oraZpx | oraAbsy | oraAbsx =>
    exact ⟨.logic (· ||| ·) _, hasMeaning_of 1 (fun _ => rfl) rfl rfl⟩
  | eorIndx | eorZpg | eorImm | eorAbs | eorIndy | eorZpi | eorZpx | eorAbsy | eorAbsx =>
    exact ⟨.logic (· ^^^ ·) _, hasMeaning_of 2 (fun _ => rfl) rfl rfl⟩
  | bitZpg | bitAbs | bitZpx | bitAbsx => exact ⟨.bitMemory _ (by nofun), hasMeaning_of 0 (fun _ => rfl) rfl rfl⟩
  | bitImm => exact ⟨.bitImmediate _, hasMeaning_of 0 (fun _ => rfl) rfl rfl⟩
  | aslZpg | aslAbs | aslZpx | aslAbsx => exact ⟨.shiftMem shiftAsl _, hasMeaning_of 0 (fun _ => rfl) rfl rfl⟩
  | aslAcc => exact ⟨.shiftAcc shiftAsl, hasMeaning_of 0 (fun _ => rfl) rfl rfl⟩
  | lsrZpg | lsrAbs | lsrZpx | lsrAbsx => exact ⟨.shiftMem shiftLsr _, hasMeaning_of 1 (fun _ => rfl) rfl rfl⟩
  | lsrAcc => exact ⟨.shiftAcc shiftLsr, hasMeaning_of 1 (fun _ => rfl) rfl rfl⟩
  | rolZpg | rolAbs | rolZpx | rolAbsx => exact ⟨.shiftMem shiftRol _, hasMeaning_of 2 (fun _ => rfl) rfl rfl⟩
  | rolAcc => exact ⟨.shiftAcc shiftRol, hasMeaning_of 2 (fun _ => rfl) rfl rfl⟩
  | rorZpg | rorAbs | rorZpx | rorAbsx => exact ⟨.shiftMem shiftRor _, hasMeaning_of 3 (fun _ => rfl) rfl rfl⟩
  | rorAcc => exact ⟨.shiftAcc shiftRor, hasMeaning_of 3 (fun _ => rfl) rfl rfl⟩
  | tsbZpg | tsbAbs => exact ⟨.testAndModify _ _, hasMeaning_of 0 (fun _ => rfl) rfl rfl⟩
  | trbZpg | trbAbs => exact ⟨.testAndModify _ _, hasMeaning_of 1 (fun _ => rfl) rfl rfl⟩
  | rmb0 => exact ⟨.modifyBit _ _, hasMeaning_of 0 (fun _ => rfl) rfl rfl⟩
  | rmb1 => exact ⟨.modifyBit _ _, hasMeaning_of 1 (fun _ => rfl) rfl rfl⟩
  | rmb2 => exact ⟨.modifyBit _ _, hasMeaning_of 2 (fun _ => rfl) rfl rfl⟩
  | rmb3 => exact ⟨.modifyBit _ _, hasMeaning_of 3 (fun _ => rfl) rfl rfl⟩
  | rmb4 => exact ⟨.modifyBit _ _, hasMeaning_of 4 (fun _ => rfl) rfl rfl⟩
  | rmb5 => exact ⟨.modifyBit _ _, hasMeaning_of 5 (fun _ => rfl) rfl rfl⟩
  | rmb6 => exact ⟨.modifyBit _ _, hasMeaning_of 6 (fun _ => rfl) rfl rfl⟩
  | rmb7 => exact ⟨.modifyBit _ _, hasMeaning_of 7 (fun _ => rfl) rfl rfl⟩
  | smb0 => exact ⟨.modifyBit _ _, hasMeaning_of 8 (fun _ => rfl) rfl rfl⟩
  | smb1 => exact ⟨.modifyBit _ _, hasMeaning_of 9 (fun _ => rfl) rfl rfl⟩
  | smb2 => exact ⟨.modifyBit _ _, hasMeaning_of 10 (fun _ => rfl) rfl rfl⟩
  | smb3 => exact ⟨.modifyBit _ _, hasMeaning_of 11 (fun _ => rfl) rfl rfl⟩
  | smb4 => exact ⟨.modifyBit _ _, hasMeaning_of 12 (fun _ => rfl) rfl rfl⟩
  | smb5 => exact ⟨.modifyBit _ _, hasMeaning_of 13 (fun _ => rfl) rfl rfl⟩
  | smb6 => exact ⟨.modifyBit _ _, hasMeaning_of 14 (fun _ => rfl) rfl rfl⟩
  | smb7 => exact ⟨.modifyBit _ _, hasMeaning_of 15 (fun _ => rfl) rfl rfl⟩
  | bcc => exact ⟨.branch (fun _ _ _ c => !c) _, hasMeaning_of 0 (fun _ => rfl) rfl rfl⟩
  | bcs => exact ⟨.branch (fun _ _ _ c => c) _, hasMeaning_of 1 (fun _ => rfl) rfl rfl⟩
  | beq => exact ⟨.branch (fun _ _ z _ => z) _, hasMeaning_of 2 (fun _ => rfl) rfl rfl⟩
  | bne => exact ⟨.branch (fun _ _ z _ => !z) _, hasMeaning_of 3 (fun _ => rfl) rfl rfl⟩
  | bmi => exact ⟨.branch (fun n _ _ _ => n) _, hasMeaning_of 4 (fun _ => rfl) rfl rfl⟩
  | bpl => exact ⟨.branch (fun n _ _ _ => !n) _, hasMeaning_of 5 (fun _ => rfl) rfl rfl⟩
  | bvc => exact ⟨.branch (fun _ v _ _ => !v) _, hasMeaning_of 6 (fun _ => rfl) rfl rfl⟩
  | bvs => exact ⟨.branch (fun _ v _ _ => v) _, hasMeaning_of 7 (fun _ => rfl) rfl rfl⟩
  | bra => exact ⟨.branch (fun _ _ _ _ => true) _, hasMeaning_of 8 (fun _ => rfl) rfl rfl⟩
  | bbr0 => exact ⟨.branchOnBit _ _ _ _, hasMeaning_of 0 (fun _ => rfl) rfl rfl⟩
  | bbr1 => exact ⟨.branchOnBit _ _ _ _, hasMeaning_of 1 (fun _ => rfl) rfl rfl⟩
  | bbr2 => exact ⟨.branchOnBit _ _ _ _, hasMeaning_of 2 (fun _ => rfl) rfl rfl⟩
  | bbr3 => exact ⟨.branchOnBit _ _ _ _, hasMeaning_of 3 (fun _ => rfl) rfl rfl⟩
  | bbr4 => exact ⟨.branchOnBit _ _ _ _, hasMeaning_of 4 (fun _ => rfl) rfl rfl⟩
  | bbr5 => exact ⟨.branchOnBit _ _ _ _, hasMeaning_of 5 (fun _ => rfl) rfl rfl⟩
  | bbr6 => exact ⟨.branchOnBit _ _ _ _, hasMeaning_of 6 (fun _ => rfl) rfl rfl⟩
  | bbr7 => exact ⟨.branchOnBit _ _ _ _, hasMeaning_of 7 (fun _ => rfl) rfl rfl⟩
  | bbs0 => exact ⟨.branchOnBit _ _ _ _, hasMeaning_of 8 (fun _ => rfl) rfl rfl⟩
  | bbs1 => exact ⟨.branchOnBit _ _ _ _, hasMeaning_of 9 (fun _ => rfl) rfl rfl⟩
  | bbs2 => exact ⟨.branchOnBit _ _ _ _, hasMeaning_of 10 (fun _ => rfl) rfl rfl⟩
  | bbs3 => exact ⟨.branchOnBit _ _ _ _, hasMeaning_of 11 (fun _ => rfl) rfl rfl⟩
  | bbs4 => exact ⟨.branchOnBit _ _ _ _, hasMeaning_of 12 (fun _ => rfl) rfl rfl⟩
  | bbs5 => exact ⟨.branchOnBit _ _ _ _, hasMeaning_of 13 (fun _ => rfl) rfl rfl⟩
  | bbs6 => exact ⟨.branchOnBit _ _ _ _, hasMeaning_of 14 (fun _ => rfl) rfl rfl⟩
  | bbs7 => exact ⟨.branchOnBit _ _ _ _, hasMeaning_of 15 (fun _ => rfl) rfl rfl⟩
  | jmpAbs => exact ⟨.jmpAbs _, hasMeaning_of 0 (fun _ => rfl) rfl rfl⟩
  | jmpInd => exact ⟨.jmpInd _, hasMeaning_of 0 (fun _ => rfl) rfl rfl⟩
  | jmpIax => exact ⟨.jmpIax _, hasMeaning_of 0 (fun _ => rfl) rfl rfl⟩
  | jsr => exact ⟨.jsr _, hasMeaning_of 0 (fun _ => rfl) rfl rfl⟩
  | rts => exact ⟨.rts, hasMeaning_of 0 (fun _ => rfl) rfl rfl⟩
  | pha => exact ⟨.push .a, hasMeaning_of 0 (fun _ => rfl) rfl rfl⟩
  | phx => exact ⟨.push .x, hasMeaning_of 0 (fun _ => rfl) rfl rfl⟩
  | phy => exact ⟨.push .y, hasMeaning_of 0 (fun _ => rfl) rfl rfl⟩
  | php => exact ⟨.php, hasMeaning_of 0 (fun _ => rfl) rfl rfl⟩
  | pla => exact ⟨.pull .a, hasMeaning_of 0 (fun _ => rfl) rfl rfl⟩
  | plx => exact ⟨.pull .x, hasMeaning_of 0 (fun _ => rfl) rfl rfl⟩
  | ply => exact ⟨.pull .y, hasMeaning_of 0 (fun _ => rfl) rfl rfl⟩
  | plp => exact ⟨.plp, hasMeaning_of 0 (fun _ => rfl) rfl rfl⟩
  | clc => exact ⟨.putC false, hasMeaning_of 0 (fun _ => rfl) rfl rfl⟩
  | sec => exact ⟨.putC true, hasMeaning_of 1 (fun _ => rfl) rfl rfl⟩
  | cli => exact ⟨.putI false, hasMeaning_of 0 (fun _ => rfl) rfl rfl⟩
  | sei => exact ⟨.putI true, hasMeaning_of 1 (fun _ => rfl) rfl rfl⟩
  | cld => exact ⟨.putD false, hasMeaning_of 0 (fun _ => rfl) rfl rfl⟩
  | sed => exact ⟨.putD true, hasMeaning_of 1 (fun _ => rfl) rfl rfl⟩
  | clv => exact ⟨.clv, hasMeaning_of 0 (fun _ => rfl) rfl rfl⟩
  | nop02 | nop22 | nop42 | nop62 | nop82 | nopC2 | nopE2 => exact ⟨.nop .imm, hasMeaning_of 0 (fun _ => rfl) rfl rfl⟩
  | nop44 => exact ⟨.nop .zpg, hasMeaning_of 0 (fun _ => rfl) rfl rfl⟩
  | nop54 | nopD4 | nopF4 => exact ⟨.nop .zpx, hasMeaning_of 0 (fun _ => rfl) rfl rfl⟩
  | nop03 | nop0B | nop13 | nop1B | nop23 | nop2B | nop33 | nop3B | nop43 | nop4B | nop53 | nop5B | nop63 | nop6B |
    nop73 | nop7B | nop83 | nop8B | nop93 | nop9B | nopA3 | nopAB | nopB3 | nopBB | nopC3 | nopD3 | nopE3 | nop |
    nopEB | nopF3 | nopFB =>
    exact ⟨.nop .imp, hasMeaning_of 0 (fun _ => rfl) rfl rfl⟩
  | nop5C | nopDC | nopFC => exact ⟨.nop .abs, hasMeaning_of 0 (fun _ => rfl) rfl rfl⟩
  | brk => exact ⟨.brk, hasMeaning_of 0 (fun _ => rfl) rfl rfl⟩
  | rti => exact ⟨.rti, hasMeaning_of 0 (fun _ => rfl) rfl rfl⟩
  | wai => exact ⟨.wai, hasMeaning_of 0 (fun _ => rfl) rfl rfl⟩
  | stp => exact ⟨.stp, hasMeaning_of 0 (fun _ => rfl) rfl rfl⟩

/-! ### What nothing reads back (R28, R31) -/

/-- `s` with another cycle counter and another P.B: the two parts of the state that nothing reads back (R28, R31). -/
def withHidden (n : Nat) (b : Bool) (s : State) : State := { s with cycles := n, p := { s.p with b := b } }

/-- At `s`, which it takes to `t`, `f` is blind to the counter and to P.B: whatever they are it gives `t`, with the
counter `c` of the old counter and P.B `g` of the old P.B. -/
def BlindAt (f : State → Result) (s t : State) (c : Nat → Nat) (g : Bool → Bool) : Prop :=
  ∀ n b, f (withHidden n b s) = .next (withHidden (c n) (g b) t)

section
variable {f : State → Result} {s t : State} {c : Nat → Nat} {g : Bool → Bool}

theorem BlindAt.eq_withHidden (hblind : BlindAt f s t c g) (h : f s = .next t) :
    t = withHidden (c s.cycles) (g s.p.b) t :=
  Host.Outcome.next.inj (h.symm.trans (hblind s.cycles s.p.b))

theorem BlindAt.cycles_eq (hblind : BlindAt f s t c g) (h : f s = .next t) : t.cycles = c s.cycles :=
  congrArg State.cycles (hblind.eq_withHidden h)

theorem BlindAt.b_eq (hblind : BlindAt f s t c g) (h : f s = .next t) : t.p.b = g s.p.b :=
  congrArg (·.p.b) (hblind.eq_withHidden h)

/-- Blindness with P.B as it is. -/
theorem BlindAt.next_of_cycles (hblind : BlindAt f s t c g) (h : f s = .next t) (n : Nat) :
    f { s with cycles := n } = .next { t with cycles := c n } := by
  have hnext := hblind n s.p.b
  rwa [← hblind.b_eq h] at hnext

/-- Blindness with the counter as it is. -/
theorem BlindAt.next_of_b (hblind : BlindAt f s t c g) (h : f s = .next t) (b : Bool) :
    f { s with p := { s.p with b := b } } = .next { t with p := { t.p with b := g b } } := by
  have hnext := hblind s.cycles b
  rwa [← hblind.cycles_eq h] at hnext

end

/-! The two bytes that PHP, BRK and an interrupt entry push have bit 4 fixed, whatever P.B is. -/

theorem pushed_mk : ∀ n v b b' d i z c : Bool,
    Status.pushed ⟨n, v, b, d, i, z, c⟩ = Status.pushed ⟨n, v, b', d, i, z, c⟩ := by decide

theorem pushedByInterrupt_mk : ∀ n v b b' d i z c : Bool,
    Status.pushedByInterrupt ⟨n, v, b, d, i, z, c⟩ = Status.pushedByInterrupt ⟨n, v, b', d, i, z, c⟩ := by decide

@[simp] theorem pushed_withHidden (n : Nat) (b : Bool) (s : State) : (withHidden n b s).p.pushed = s.p.pushed :=
  pushed_mk ..

@[simp] theorem pushedByInterrupt_withHidden (n : Nat) (b : Bool) (s : State) :
    (withHidden n b s).p.pushedByInterrupt = s.p.pushedByInterrupt := pushedByInterrupt_mk ..

theorem penalty_le_two (o : Operand) (op : Byte) (s : State) : o.penalty op s ≤ 2 := by
  unfold Operand.penalty
  split <;> omega

/-- The extra cycles of a branch with PC at the next instruction (R220). -/
def branchExtra (cond : Bool) (off : Byte) (next : Addr) : Nat :=
  if cond then (if pageDiffers (branchTarget next off) next then 2 else 1) else 0

theorem branchExtra_le_two (cond : Bool) (off : Byte) (next : Addr) : branchExtra cond off next ≤ 2 := by
  unfold branchExtra
  split_ifs <;> omega

theorem branch_withHidden (n : Nat) (b : Bool) (s : State) (cond : Bool) (off : Byte) :
    (withHidden n b s).branch cond off = withHidden (n + branchExtra cond off s.pc) b (s.branch cond off) := by
  cases cond <;> rfl

/-- An operation is blind; it adds the base count and at most two cycles, and leaves P.B alone or, where it restores or
enters, forces it to 1. -/
theorem run_blind {m : Meaning} {op : Byte} {s t : State} (h : m.run op s = .next t) :
    ∃ extra ≤ 2, ∃ g, BlindAt (m.run op) s t (· + baseCycles s.cfg op + extra) g := by
  cases m with
  | load r o =>
    cases h
    cases r <;> exact ⟨o.penalty op s, penalty_le_two .., id, fun _ _ => rfl⟩
  | store _ o | storeZero o | adc o | sbc o | compare _ o | stepMem _ o | logic _ o | bitMemory o | shiftMem _ o
  | testAndModify _ o =>
    cases h
    exact ⟨o.penalty op s, penalty_le_two .., id, fun _ _ => rfl⟩
  | bitImmediate v =>
    cases h
    exact ⟨(Operand.imm v).penalty op s, penalty_le_two .., id, fun _ _ => rfl⟩
  | modifyBit _ z =>
    cases h
    exact ⟨(Operand.zpg z).penalty op s, penalty_le_two .., id, fun _ _ => rfl⟩
  | putC | putI | putD | clv | tsx | txs | shiftAcc | jmpAbs | jmpInd | jmpIax | jsr | rts | push | nop | wai | stp =>
    cases h
    exact ⟨0, Nat.zero_le _, id, fun _ _ => rfl⟩
  | transfer _ r | stepReg r | pull r =>
    cases h
    cases r <;> exact ⟨0, Nat.zero_le _, id, fun _ _ => rfl⟩
  | branch cond off =>
    cases h
    exact ⟨branchExtra (cond s.p.n s.p.v s.p.z s.p.c) off (s.pc + 2), branchExtra_le_two .., id,
      fun n b => congrArg Host.Outcome.next (branch_withHidden (n + baseCycles s.cfg op) b (s.advance op 2) _ off)⟩
  | branchOnBit k want z off =>
    cases h
    exact ⟨branchExtra ((s.read (zeroPage z)).getLsbD k == want) off (s.pc + 3), branchExtra_le_two .., id,
      fun n b => congrArg Host.Outcome.next (branch_withHidden (n + baseCycles s.cfg op) b (s.advance op 3) _ off)⟩
  | php =>
    cases h
    refine ⟨0, Nat.zero_le _, id, fun n b => ?_⟩
    simp only [Meaning.run, pushed_withHidden]
    rfl
  | brk =>
    cases h
    refine ⟨0, Nat.zero_le _, fun _ => true, fun n b => ?_⟩
    simp only [Meaning.run, pushed_withHidden]
    rfl
  | plp =>
    cases h
    refine ⟨0, Nat.zero_le _, fun _ => true, fun n b => ?_⟩
    simp only [Meaning.run, Status.pulled_eq]
    rfl
  | rti =>
    cases h
    refine ⟨0, Nat.zero_le _, fun _ => true, fun n b => ?_⟩
    simp only [Meaning.run, State.returnFromException_eq, Status.pulled_eq]
    rfl

theorem exec_blind {i : Instr} {s t : State} (h : exec i s = .next t) :
    ∃ extra ≤ 2, ∃ g, BlindAt (exec i) s t (· + baseCycles s.cfg i.opcode + extra) g := by
  obtain ⟨m, hm⟩ := exists_meaning i
  rw [hm.exec_eq] at h
  obtain ⟨extra, hextra, g, hblind⟩ := run_blind h
  exact ⟨extra, hextra, g, fun n b => (hm.exec_eq _).trans (hblind n b)⟩

/-- What a step is about to do, with the state it does it to changed by `f`. -/
def mapTurn (f : State → State) : Turn → Turn
  | .stuck => .stuck
  | .waitCycle => .waitCycle
  | .interrupt k s => .interrupt k (f s)
  | .instruction s => .instruction (f s)

theorem turn_withHidden (n : Nat) (b : Bool) (s : State) :
    (withHidden n b s).turn = mapTurn (withHidden n b) s.turn := by
  simp only [State.turn, apply_ite (mapTurn _)]
  rfl

theorem interruptEntry_withHidden (n : Nat) (b : Bool) (s : State) (k : InterruptKind) :
    (withHidden n b s).interruptEntry k = withHidden (n + 7) false (s.interruptEntry k) := by
  cases k <;> simp only [State.interruptEntry, pushedByInterrupt_withHidden] <;> rfl

theorem illegalOpcode_withHidden (s : State) :
    ∃ d, ∀ n b, (withHidden n b s).illegalOpcode = withHidden (n + d) b s.illegalOpcode := by
  cases hpol : s.cfg.illegalPolicy with
  | strict =>
    refine ⟨0, fun n b => ?_⟩
    have hpol' : (withHidden n b s).cfg.illegalPolicy = .strict := hpol
    simp only [State.illegalOpcode, hpol, hpol']
    rfl
  | permissive =>
    refine ⟨s.cfg.permissiveCycles, fun n b => ?_⟩
    have hpol' : (withHidden n b s).cfg.illegalPolicy = .permissive := hpol
    simp only [State.illegalOpcode, hpol, hpol']
    rfl

/-- A step is blind, and no step lowers the counter. -/
theorem step_blind {s t : State} (h : step s = .next t) : ∃ d g, BlindAt step s t (· + d) g := by
  obtain ⟨hturn, -, rfl⟩ | ⟨hturn, -, -, -, rfl⟩ | ⟨k, hturn, -, rfl⟩ | ⟨i, hturn, -, hfetch, hexec⟩ |
    ⟨e, hturn, -, hfetch, rfl⟩ := step_cases h
  · refine ⟨0, id, fun n b => ?_⟩
    simp only [step, turn_withHidden, hturn, mapTurn]
    rfl
  · refine ⟨1, id, fun n b => ?_⟩
    simp only [step, turn_withHidden, hturn, mapTurn]
    rfl
  · refine ⟨7, fun _ => false, fun n b => ?_⟩
    simp only [step, turn_withHidden, hturn, mapTurn, interruptEntry_withHidden]
  · obtain ⟨extra, -, g, hblind⟩ := exec_blind hexec
    refine ⟨baseCycles s.cfg i.opcode + extra, g, fun n b => ?_⟩
    have hfetch' : (withHidden n b s.wake).fetch = .ok i := hfetch
    simp only [step, turn_withHidden, hturn, mapTurn, hfetch', hblind n b, State.wake_cfg, Nat.add_assoc]
  · obtain ⟨d, hillegal⟩ := illegalOpcode_withHidden s.wake
    refine ⟨d, id, fun n b => ?_⟩
    have hfetch' : (withHidden n b s.wake).fetch = .error e := hfetch
    simp only [step, turn_withHidden, hturn, mapTurn, hfetch', hillegal, id]

/-- Settles O16: a step is blind to the counter, and P.B stays as it is. -/
theorem nothingDependsOnCycles : Obligations.NothingDependsOnCycles := by
  intro s t n h
  obtain ⟨d, g, hblind⟩ := step_blind h
  exact ⟨n + d, hblind.next_of_cycles h n⟩

/-- Settles O17: a step is blind to P.B, and the counter stays as it is. -/
theorem nothingDependsOnBreakFlag : Obligations.NothingDependsOnBreakFlag := by
  intro s t b h
  obtain ⟨d, g, hblind⟩ := step_blind h
  exact ⟨g b, hblind.next_of_b h b⟩

/-- Settles O15: blindness says how far the counter moves. -/
theorem cyclesGrowByBaseAndExtra : Obligations.CyclesGrowByBaseAndExtra := by
  refine ⟨fun i s t h => ?_, fun s t h => ?_⟩
  · obtain ⟨extra, hextra, g, hblind⟩ := exec_blind h
    exact ⟨extra, hextra, hblind.cycles_eq h⟩
  · obtain ⟨d, g, hblind⟩ := step_blind h
    rw [hblind.cycles_eq h]
    exact Nat.le_add_right ..

/-! ### Who writes the registers and flags (R24, R29) -/

/-- The registers of R24 and the flags of R29. -/
inductive Field where
  | a | x | y | sp | n | v | b | d | i | z | c
  deriving DecidableEq

/-- The field has one value in both states. -/
def Field.Kept (f : Field) (s t : State) : Prop :=
  match f with
  | .a => t.a = s.a
  | .x => t.x = s.x
  | .y => t.y = s.y
  | .sp => t.sp = s.sp
  | .n => t.p.n = s.p.n
  | .v => t.p.v = s.p.v
  | .b => t.p.b = s.p.b
  | .d => t.p.d = s.p.d
  | .i => t.p.i = s.p.i
  | .z => t.p.z = s.p.z
  | .c => t.p.c = s.p.c

def regField : Reg → Field
  | .a => .a
  | .x => .x
  | .y => .y

/-- The fields an operation can change. -/
def Meaning.writes : Meaning → List Field
  | .load r _ | .transfer _ r | .stepReg r _ => [regField r, .n, .z]
  | .logic _ _ => [.a, .n, .z]
  | .tsx => [.x, .n, .z]
  | .pull r => [regField r, .sp, .n, .z]
  | .adc _ | .sbc _ => [.a, .n, .v, .z, .c]
  | .compare _ _ | .shiftMem _ _ => [.n, .z, .c]
  | .shiftAcc _ => [.a, .n, .z, .c]
  | .stepMem _ _ => [.n, .z]
  | .bitMemory _ _ => [.n, .v, .z]
  | .bitImmediate _ | .testAndModify _ _ => [.z]
  | .txs | .jsr _ | .rts | .push _ | .php => [.sp]
  | .plp | .rti => [.sp, .n, .v, .b, .d, .i, .z, .c]
  | .brk => [.sp, .b, .d, .i]
  | .putC _ => [.c]
  | .putI _ => [.i]
  | .putD _ => [.d]
  | .clv => [.v]
  | .store _ _ | .storeZero _ | .modifyBit _ _ | .branch _ _ | .branchOnBit .. | .jmpAbs _ | .jmpInd _ | .jmpIax _
  | .nop _ | .wai | .stp => []

/-- An operation keeps every field it does not write. -/
theorem run_kept {m : Meaning} {op : Byte} {s t : State} {f : Field} (h : m.run op s = .next t) (hf : f ∉ m.writes) :
    f.Kept s t := by
  cases m with
  | load r | transfer _ r | stepReg r | pull r =>
    cases h
    cases r <;> cases f <;> simp [Meaning.writes, regField, Field.Kept, Status.nz] at hf ⊢
  | _ =>
    cases h
    cases f <;> simp [Meaning.writes, Field.Kept, State.branch_eq, Status.nz, Status.alu, Status.compare,
      Status.testZ, Status.bitTest, Status.shifted] at hf ⊢

/-- The mnemonics listed against a field: R24's for a register, without the accumulator forms of A, and R29's for a
flag. -/
def Field.writers : Field → List String
  | .a => ["LDA", "PLA", "TXA", "TYA", "ADC", "SBC", "AND", "ORA", "EOR"]
  | .x => ["LDX", "TAX", "TSX", "INX", "DEX", "PLX"]
  | .y => ["LDY", "TAY", "INY", "DEY", "PLY"]
  | .sp => ["TXS", "PHA", "PHP", "PHX", "PHY", "PLA", "PLP", "PLX", "PLY", "JSR", "RTS", "BRK", "RTI"]
  | .n => ["ADC", "SBC", "AND", "ORA", "EOR", "LDA", "LDX", "LDY", "TAX", "TAY", "TXA", "TYA", "TSX", "PLA", "PLX",
      "PLY", "INC", "DEC", "INX", "INY", "DEX", "DEY", "CMP", "CPX", "CPY", "ASL", "LSR", "ROL", "ROR", "BIT", "PLP",
      "RTI"]
  | .v => ["ADC", "SBC", "BIT", "CLV", "PLP", "RTI"]
  | .b => ["BRK", "PLP", "RTI"]
  | .d => ["CLD", "SED", "PLP", "RTI", "BRK"]
  | .i => ["CLI", "SEI", "BRK", "PLP", "RTI"]
  | .z => ["ADC", "SBC", "AND", "ORA", "EOR", "LDA", "LDX", "LDY", "TAX", "TAY", "TXA", "TYA", "TSX", "PLA", "PLX",
      "PLY", "INC", "DEC", "INX", "INY", "DEX", "DEY", "CMP", "CPX", "CPY", "ASL", "LSR", "ROL", "ROR", "BIT", "TSB",
      "TRB", "PLP", "RTI"]
  | .c => ["ADC", "SBC", "CMP", "CPX", "CPY", "ASL", "LSR", "ROL", "ROR", "CLC", "SEC", "PLP", "RTI"]

/-- An operation that can change a field is listed against it, or is an accumulator form. -/
theorem mnemonics_subset_writers {m : Meaning} {f : Field} (hf : f ∈ m.writes) :
    m.mnemonics ⊆ f.writers ∨ (f = .a ∧ m.mode = .acc) := by
  cases m with
  | shiftAcc =>
    revert f
    simp only [Meaning.writes, Meaning.mnemonics, Meaning.mode]
    decide
  | stepReg r =>
    revert f
    cases r <;> simp only [Meaning.writes, Meaning.mnemonics, Meaning.mode, regField] <;> decide
  | load r | store r | transfer _ r | compare r | push r | pull r =>
    left
    revert f
    cases r <;> simp only [Meaning.writes, Meaning.mnemonics, regField] <;> decide
  | _ =>
    left
    revert f
    simp only [Meaning.writes, Meaning.mnemonics]
    decide

/-- An instruction that is not listed against a field keeps it. -/
theorem exec_kept {i : Instr} {s t : State} (h : exec i s = .next t) (f : Field) (hmn : mnemonicOf i ∉ f.writers)
    (hacc : f = .a → modeOf i ≠ .acc) : f.Kept s t := by
  obtain ⟨m, hm⟩ := exists_meaning i
  rw [hm.exec_eq] at h
  refine run_kept h fun hf => ?_
  obtain hsub | ⟨ha, hmode⟩ := mnemonics_subset_writers hf
  · exact hmn (hsub hm.mnemonic_mem)
  · exact hacc ha (hm.mode_eq.trans hmode)

/-- The immediate form of BIT is the operation of its own that changes Z alone (R193). -/
theorem eq_bitImmediate_of_row {m : Meaning} (hmn : "BIT" ∈ m.mnemonics) (hmode : m.mode = .imm) :
    ∃ v, m = .bitImmediate v := by
  cases m with
  | bitImmediate v => exact ⟨v, rfl⟩
  | bitMemory o ho => exact absurd hmode ho
  | load r | store r | transfer _ r | compare r | stepReg r | push r | pull r =>
    cases r <;> simp [Meaning.mnemonics] at hmn
  | _ => simp [Meaning.mnemonics] at hmn

theorem exec_bit_imm_kept {i : Instr} {s t : State} (h : exec i s = .next t) (hmn : mnemonicOf i = "BIT")
    (hmode : modeOf i = .imm) : t.p.n = s.p.n ∧ t.p.v = s.p.v := by
  obtain ⟨m, hm⟩ := exists_meaning i
  obtain ⟨v, rfl⟩ := eq_bitImmediate_of_row (hmn ▸ hm.mnemonic_mem) (hm.mode_eq ▸ hmode)
  rw [hm.exec_eq] at h
  exact ⟨run_kept (f := .n) h (by simp [Meaning.writes]), run_kept (f := .v) h (by simp [Meaning.writes])⟩

/-- Settles O18: a flag outside what the operation writes is kept. -/
theorem flagsChangeOnlyByTheirWriters : Obligations.FlagsChangeOnlyByTheirWriters := by
  intro i s t h
  exact ⟨fun hmn => exec_kept h .n hmn nofun, fun hmn => exec_kept h .v hmn nofun, exec_bit_imm_kept h,
    fun hmn => exec_kept h .b hmn nofun, fun hmn => exec_kept h .d hmn nofun, fun hmn => exec_kept h .i hmn nofun,
    fun hmn => exec_kept h .z hmn nofun, fun hmn => exec_kept h .c hmn nofun⟩

/-- Settles O19: a register outside what the operation writes is kept. -/
theorem registersChangeOnlyByTheirWriters : Obligations.RegistersChangeOnlyByTheirWriters := by
  intro i s t h
  exact ⟨fun hmn hmode => exec_kept h .a hmn fun _ => hmode, fun hmn => exec_kept h .x hmn nofun,
    fun hmn => exec_kept h .y hmn nofun, fun hmn => exec_kept h .sp hmn nofun⟩

/-! ### The status register as a byte (R26, R27) -/

theorem getElem_flagBit (b : Bool) (mask : Byte) {k : Nat} (hk : k < 8) : (flagBit b mask)[k] = (b && mask[k]) := by
  cases b <;> simp [flagBit]

theorem toByte_ofByte (v : Byte) : (Status.ofByte v).toByte = v ||| 0x20 := by
  ext k hk
  interval_cases k <;> simp [Status.toByte, Status.ofByte, getElem_flagBit]

/-- Settles O24: each mask of R26 has one bit, so bit by bit one flag is left, or the constant at bit 5. -/
theorem statusByteHasUnusedBitSet : Obligations.StatusByteHasUnusedBitSet :=
  ⟨fun p => by simp [Status.toByte, getElem_flagBit], fun _ v => ⟨toByte_ofByte v, rfl⟩⟩

/-! ### The state after reset (R35) -/

theorem inv_of_quiet {s : State} (hmem : s.mem.wf) (hwaiting : s.waiting = false) (hstopped : s.stopped = false)
    (hfault : s.fault = none) : Inv s :=
  ⟨hmem, fun _ => hwaiting, by simp [hstopped], by simp [hfault]⟩

/-- Settles O13: after reset nothing waits, nothing has stopped, and there is no fault. -/
theorem resetMeetsInvariant : Obligations.ResetMeetsInvariant :=
  ⟨inv_of_quiet State.wf_reset rfl rfl rfl, fun _ _ hm => inv_of_quiet hm rfl rfl rfl⟩

/-- `reset()` reads PC through the vector of an empty memory, which is the 0x0000 that `State.reset` has. -/
theorem doReset_reset : State.reset.doReset = State.reset := rfl

/-- Settles O23: every value is a field of one concrete state. -/
theorem resetStateHasTheSpecsValues : Obligations.ResetStateHasTheSpecsValues :=
  ⟨rfl, rfl, rfl, rfl, by decide, rfl, rfl, rfl, rfl, rfl, doReset_reset⟩

end Sys2Proof.Proofs
end

