-- ==== Sys2Proof/Proofs/MemoryRules.lean ====
section
/-! PROOF. Memory and the stack (20_memory.md): the canonical form is faithful to the bytes (R50), 16-bit reads (R51,
R52), the stack (R58 to R63), which instructions store bytes and which (R54, R110), and the invariant of every step. -/

namespace Sys2Proof.Proofs

open Sys2Proof.Machine

/-! ### The canonical form is faithful (R50) -/

theorem read_eq_of_mem {m : Memory} {a : Nat} {v : Byte} (hm : m.wf) (hmem : (a, v) ∈ m) : m.read a = v := by
  induction m with
  | nil => cases hmem
  | cons c m ih =>
    obtain ⟨hrising, hcells⟩ := hm
    obtain ⟨hfirst, hrising⟩ := List.pairwise_cons.mp hrising
    obtain ⟨-, hcells⟩ := List.forall_mem_cons.mp hcells
    obtain rfl | htail := List.mem_cons.mp hmem
    · rw [Memory.read, if_pos rfl]
    · rw [Memory.read, if_neg (hfirst _ htail).ne, ih ⟨hrising, hcells⟩ htail]

theorem mem_of_read_ne_unlisted {m : Memory} {a : Nat} (h : m.read a ≠ Memory.unlisted) : (a, m.read a) ∈ m := by
  induction m with
  | nil => exact absurd rfl h
  | cons c m ih =>
    by_cases hc : c.1 = a
    · rw [Memory.read, if_pos hc, ← hc]
      exact List.mem_cons_self
    · rw [Memory.read, if_neg hc] at h ⊢
      exact List.mem_cons_of_mem _ (ih h)

theorem mem_of_same_bytes {m m' : Memory} (hm : m.wf) (hread : ∀ a, a < 65536 → m.read a = m'.read a) {c : Host.Cell}
    (hc : c ∈ m) : c ∈ m' := by
  obtain ⟨ha, hv⟩ := hm.2 c hc
  have hbyte : m'.read c.1 = c.2 := (hread _ ha).symm.trans (read_eq_of_mem hm hc)
  have hmem : (c.1, m'.read c.1) ∈ m' := mem_of_read_ne_unlisted (hbyte ▸ hv)
  rwa [hbyte] at hmem

theorem nodup_of_wf {m : Memory} (hm : m.wf) : m.Nodup := by
  refine hm.1.imp ?_
  rintro c _ hlt rfl
  exact lt_irrefl _ hlt

/-- Settles O25: the same bytes are the same cells, and a strictly rising list is fixed by its members. -/
theorem equalBytesAreEqualMemories : Obligations.EqualBytesAreEqualMemories := by
  intro m m' hm hm' hread
  have hcells : ∀ c, c ∈ m ↔ c ∈ m' := fun c =>
    ⟨mem_of_same_bytes hm hread, mem_of_same_bytes hm' fun a ha => (hread a ha).symm⟩
  have hperm : m.Perm m' := (List.perm_ext_iff_of_nodup (nodup_of_wf hm) (nodup_of_wf hm')).mpr hcells
  exact hperm.eq_of_pairwise (fun _ _ _ _ h h' => absurd h (lt_asymm h')) hm.1 hm'.1

/-! ### 16-bit reads (R51, R52) -/

theorem addr_add_one_toNat (a : Addr) : (a + 1).toNat = (a.toNat + 1) % 65536 := by
  rw [BitVec.toNat_add]
  rfl

theorem byte_add_one_toNat (v : Byte) : (v + 1).toNat = (v.toNat + 1) % 256 := by
  rw [BitVec.toNat_add]
  rfl

/-- The next address within the page (R51, `Read16Page`). -/
theorem nextInPage_toNat (a : Addr) :
    (word (hiByte a) (loByte a + 1)).toNat = a.toNat / 256 * 256 + (a.toNat + 1) % 256 := by
  rw [word_toNat, byte_add_one_toNat, hiByte_toNat, loByte_toNat]
  omega

/-- Settles O26: a word is its low byte and 256 times its high byte, and each high byte's address has its own wrap. -/
theorem wordReadsAreLittleEndian : Obligations.WordReadsAreLittleEndian := by
  intro s a z
  refine ⟨?_, ?_, ?_⟩
  · rw [State.read16, word_toNat, State.read, State.read, addr_add_one_toNat]
  · rw [State.read16ZP, word_toNat, State.read, State.read, zeroPage_toNat, zeroPage_toNat, byte_add_one_toNat]
  · rw [State.read16Page, word_toNat, State.read, State.read, nextInPage_toNat]

/-! ### The stack (R58 to R63) -/

theorem stackCell_toNat (sp : Byte) : (stackCell sp).toNat = 0x0100 + sp.toNat := by
  rw [stackCell, word_toNat, Nat.add_comm]
  rfl

theorem onlyStored_write (s : State) (a : Addr) (v : Byte) : OnlyStored s (s.write a v) a v :=
  ⟨State.read_write_self _ _ _, fun _ hne => State.read_write_of_ne _ _ hne⟩

/-- Settles O27: a push is one write at the stack cell, and the rest are the definitions. -/
theorem pushAndPopUsePageOne : Obligations.PushAndPopUsePageOne :=
  fun s v => ⟨stackCell_toNat s.sp, onlyStored_write s _ v, rfl, rfl, rfl⟩

theorem dropWord_pushWord (s : State) (w : Addr) :
    (s.pushWord w).dropWord = { s with mem := (s.pushWord w).mem } := by
  simp [State.dropWord, State.dropByte, State.setSP]

theorem popWord_pushWord (s : State) (w : Addr) : (s.pushWord w).popWord = w := by
  obtain ⟨hhi, hlo, -⟩ := s.read_pushWord w
  simp only [State.popWord, State.popByte, State.read_dropByte, State.dropByte_sp, State.pushWord_sp,
    BitVec.sub_add_cancel, hhi, hlo, word_hiByte_loByte]

/-- Settles O28: the two cells of the pushed word are the two that the pop reads. -/
theorem popWordReturnsThePushedWord : Obligations.PopWordReturnsThePushedWord := by
  intro s w
  obtain ⟨hhi, hlo, -⟩ := s.read_pushWord w
  exact ⟨popWord_pushWord s w, dropWord_pushWord s w, hhi, hlo⟩

/-! ### The bytes an instruction stores (R54, R110) -/

/-- The bytes an operation stores, in order, when it starts in `s`. -/
def Meaning.stores (m : Meaning) (s : State) : List (Addr × Byte) :=
  match m with
  | .store r o => [(o.ea s, s.reg r)]
  | .storeZero o => [(o.ea s, 0x00)]
  | .stepMem f o => [(o.ea s, f (o.value s))]
  | .shiftMem f o => [(o.ea s, (f (o.value s) s.p.c).r)]
  | .testAndModify f o => [(o.ea s, f (o.value s) s.a)]
  | .modifyBit f z => [(zeroPage z, f (s.read (zeroPage z)))]
  | .jsr _ => [(stackCell s.sp, hiByte (s.pc + 3 - 1)), (stackCell (s.sp - 1), loByte (s.pc + 3 - 1))]
  | .push r => [(stackCell s.sp, s.reg r)]
  | .php => [(stackCell s.sp, s.p.pushed)]
  | .brk => [(stackCell s.sp, hiByte (s.pc + 1 + 1)), (stackCell (s.sp - 1), loByte (s.pc + 1 + 1)),
      (stackCell (s.sp - 1 - 1), s.p.pushed)]
  | _ => []

/-- Memory with the bytes stored one after the other. -/
def storeAll (mem : Memory) (stores : List (Addr × Byte)) : Memory :=
  stores.foldl (fun mem cell => mem.write cell.1.toNat cell.2) mem

theorem wf_storeAll {mem : Memory} (h : mem.wf) (stores : List (Addr × Byte)) : (storeAll mem stores).wf := by
  induction stores generalizing mem with
  | nil => exact h
  | cons cell stores ih => exact ih (Memory.wf_write_addr h cell.1 cell.2)

/-- An operation leaves memory with the bytes it stores, and no other change. -/
theorem run_mem {m : Meaning} {op : Byte} {s t : State} (h : m.run op s = .next t) :
    t.mem = storeAll s.mem (m.stores s) := by
  cases m with
  | _ =>
    cases h
    simp [Meaning.stores, storeAll, State.branch_eq]

theorem exec_mem {i : Instr} {s t : State} (h : exec i s = .next t) :
    ∃ m, HasMeaning i m ∧ t.mem = storeAll s.mem (m.stores s) := by
  obtain ⟨m, hm⟩ := exists_meaning i
  rw [hm.exec_eq] at h
  exact ⟨m, hm, run_mem h⟩

theorem wf_mem_of_exec {i : Instr} {s t : State} (hmem : s.mem.wf) (h : exec i s = .next t) : t.mem.wf := by
  obtain ⟨m, -, hmem'⟩ := exec_mem h
  exact hmem' ▸ wf_storeAll hmem _

theorem operand_mode_ne_acc (o : Operand) : o.mode ≠ .acc := by
  cases o <;> nofun

/-- The mnemonics whose every form stores a byte. -/
def memoryWriters : List String :=
  ["STA", "STX", "STY", "STZ", "TSB", "TRB", "PHA", "PHP", "PHX", "PHY", "JSR", "BRK",
    "RMB0", "RMB1", "RMB2", "RMB3", "RMB4", "RMB5", "RMB6", "RMB7",
    "SMB0", "SMB1", "SMB2", "SMB3", "SMB4", "SMB5", "SMB6", "SMB7"]

/-- The mnemonics whose memory forms store a byte and whose accumulator form does not. -/
def memoryOrAccWriters : List String := ["ASL", "LSR", "ROL", "ROR", "INC", "DEC"]

theorem stores_eq_nil_or_writer (m : Meaning) (s : State) :
    m.stores s = [] ∨ m.mnemonics ⊆ memoryWriters ∨ (m.mnemonics ⊆ memoryOrAccWriters ∧ m.mode ≠ .acc) := by
  cases m with
  | store r | push r =>
    right; left
    cases r <;> simp only [Meaning.mnemonics] <;> decide
  | storeZero | testAndModify | modifyBit | jsr | php | brk =>
    right; left
    simp only [Meaning.mnemonics]
    decide
  | stepMem _ o | shiftMem _ o =>
    right; right
    refine ⟨?_, operand_mode_ne_acc o⟩
    simp only [Meaning.mnemonics]
    decide
  | _ => exact .inl rfl

/-- Settles O20: an operation that stores a byte is listed, or is a memory form of a shift, INC or DEC. -/
theorem memoryChangesOnlyByItsWriters : Obligations.MemoryChangesOnlyByItsWriters := by
  intro i s t h hwriter hacc
  obtain ⟨m, hm, hmem⟩ := exec_mem h
  obtain hnil | hsub | ⟨hsub, hmode⟩ := stores_eq_nil_or_writer m s
  · rw [hmem, hnil]
    rfl
  · exact absurd (hsub hm.mnemonic_mem) hwriter
  · exact absurd (hm.mode_eq.symm.trans (hacc (hsub hm.mnemonic_mem))) hmode

/-! ### The control state an instruction leaves (R2, R306, R320) -/

/-- An operation from `s` to `t` keeps the configuration, the fault and the requests, and what only WAI or STP sets. -/
structure ControlKept (m : Meaning) (s t : State) : Prop where
  cfg : t.cfg = s.cfg
  fault : t.fault = s.fault
  nmiPending : t.nmiPending = s.nmiPending
  irqLine : t.irqLine = s.irqLine
  waiting : m ≠ .wai → t.waiting = s.waiting
  stopped : m ≠ .stp → t.stopped = s.stopped

/-- Of the operations, only WAI and STP write a part of the control state, one flag each. -/
theorem run_controlKept {m : Meaning} {op : Byte} {s t : State} (h : m.run op s = .next t) : ControlKept m s t := by
  cases m with
  | _ =>
    cases h
    constructor <;> simp [State.branch_eq]

theorem exec_controlKept {i : Instr} {s t : State} (h : exec i s = .next t) :
    ∃ m, HasMeaning i m ∧ ControlKept m s t := by
  obtain ⟨m, hm⟩ := exists_meaning i
  rw [hm.exec_eq] at h
  exact ⟨m, hm, run_controlKept h⟩

theorem exec_cfg {i : Instr} {s t : State} (h : exec i s = .next t) : t.cfg = s.cfg := by
  obtain ⟨m, -, hkept⟩ := exec_controlKept h
  exact hkept.cfg

theorem exec_fault {i : Instr} {s t : State} (h : exec i s = .next t) : t.fault = s.fault := by
  obtain ⟨m, -, hkept⟩ := exec_controlKept h
  exact hkept.fault

theorem exec_waiting {i : Instr} {s t : State} (h : exec i s = .next t) (hmn : mnemonicOf i ≠ "WAI") :
    t.waiting = s.waiting := by
  obtain ⟨m, hm, hkept⟩ := exec_controlKept h
  refine hkept.waiting ?_
  rintro rfl
  exact hmn (List.mem_singleton.mp hm.mnemonic_mem)

theorem exec_stopped {i : Instr} {s t : State} (h : exec i s = .next t) (hmn : mnemonicOf i ≠ "STP") :
    t.stopped = s.stopped := by
  obtain ⟨m, hm, hkept⟩ := exec_controlKept h
  refine hkept.stopped ?_
  rintro rfl
  exact hmn (List.mem_singleton.mp hm.mnemonic_mem)

/-! ### The row of a fetched instruction -/

/-- Row by row, the opcode of the instruction an entry builds is the entry's place in the table. -/
theorem map_opcode_build (b1 b2 : Byte) :
    opcodeRows.map (·.map fun d => (d.build b1 b2).opcode) =
      (List.range 16).map fun hi => (List.range 16).map fun lo => BitVec.ofNat 8 (16 * hi + lo) := rfl

theorem exists_row_of_tableEntry {op : Byte} {d : Descriptor} (hd : tableEntry op = some d) :
    ∃ row, opcodeRows[op.toNat / 16]? = some row ∧ row[op.toNat % 16]? = some d :=
  Option.bind_eq_some_iff.mp hd

theorem opcode_build {op : Byte} {d : Descriptor} (hd : tableEntry op = some d) (b1 b2 : Byte) :
    (d.build b1 b2).opcode = op := by
  obtain ⟨row, hrow, hcell⟩ := exists_row_of_tableEntry hd
  have hhi : op.toNat / 16 < 16 := by have := op.isLt; omega
  have hlo : op.toNat % 16 < 16 := Nat.mod_lt _ (by decide)
  have hops := congrArg (·[op.toNat / 16]?) (map_opcode_build b1 b2)
  simp only [List.getElem?_map, hrow, List.getElem?_range hhi, Option.map_some, Option.some_inj] at hops
  have hop := congrArg (·[op.toNat % 16]?) hops
  simpa only [List.getElem?_map, hcell, List.getElem?_range hlo, Option.map_some, Option.some_inj, Nat.div_add_mod,
    BitVec.ofNat_toNat, BitVec.setWidth_eq] using hop

/-- WAI is no row of the NMOS table, and STP a row of the optional set alone (R85, R86). -/
theorem avail_of_mnemonic : ∀ row ∈ opcodeRows, ∀ d ∈ row,
    (d.mnemonic = "WAI" → d.avail = .cmos) ∧ (d.mnemonic = "STP" → d.avail = .wdc) := by
  decide

theorem decode_eq_error_iff {cfg : Config} {op b1 b2 : Byte} {e : DecodeError} :
    decode cfg op b1 b2 = .error e ↔ descriptor cfg op = none ∧ e = .undefinedOpcode op := by
  unfold decode
  cases descriptor cfg op <;> simp [eq_comm]

/-- A fetched instruction is a row of the configuration's table. -/
theorem row_of_fetch {s : State} {i : Instr} (h : s.fetch = .ok i) :
    ∃ row ∈ opcodeRows, ∃ d ∈ row, d.mnemonic = mnemonicOf i ∧ d.avail.definedIn s.cfg = true := by
  obtain ⟨d, hd, rfl⟩ := decode_eq_ok_iff.mp h
  obtain ⟨hentry, hdef⟩ := descriptor_eq_some_iff.mp hd
  obtain ⟨row, hrow, hcell⟩ := exists_row_of_tableEntry hentry
  refine ⟨row, List.mem_of_getElem? hrow, d, List.mem_of_getElem? hcell, ?_, hdef⟩
  rw [mnemonicOf, opcode_build hentry, hentry]

theorem variant_of_fetch_wai {s : State} {i : Instr} (h : s.fetch = .ok i) (hmn : mnemonicOf i = "WAI") :
    s.cfg.variant = .cmos := by
  obtain ⟨row, hrow, d, hd, hdmn, hdef⟩ := row_of_fetch h
  rw [(avail_of_mnemonic row hrow d hd).1 (hdmn.trans hmn)] at hdef
  exact beq_iff_eq.mp hdef

theorem cfg_of_fetch_stp {s : State} {i : Instr} (h : s.fetch = .ok i) (hmn : mnemonicOf i = "STP") :
    s.cfg.variant = .cmos ∧ s.cfg.wdcExtras = true := by
  obtain ⟨row, hrow, d, hd, hdmn, hdef⟩ := row_of_fetch h
  rw [(avail_of_mnemonic row hrow d hd).2 (hdmn.trans hmn)] at hdef
  simpa [Availability.definedIn] using hdef

/-! ### The invariant of every step (R32, R288, R300, R301) -/

/-- What an interrupt entry adds to taking the exception (R313, R314). -/
theorem interruptEntry_eq (s : State) (k : InterruptKind) :
    s.interruptEntry k = { s.takeException (interruptVector k) s.p.pushedByInterrupt false with
      cycles := s.cycles + 7
      nmiPending := k == .irq && s.nmiPending } := by
  cases k <;> simp [State.interruptEntry, State.addCycles]

/-- The core is about to take an interrupt or run an instruction: awake, neither stopped nor faulted, with memory in
canonical form. -/
structure Running (s : State) : Prop where
  mem : s.mem.wf
  waiting : s.waiting = false
  stopped : s.stopped = false
  fault : s.fault = none

theorem running_wake {s : State} (hmem : s.mem.wf) (hstuck : s.stuck = false) : Running s.wake := by
  obtain ⟨hfault, hstopped⟩ : s.fault = none ∧ s.stopped = false := by simpa [State.stuck] using hstuck
  exact ⟨hmem, rfl, hstopped, hfault⟩

namespace Running

variable {s : State}

theorem inv (hs : Running s) : Inv s := inv_of_quiet hs.mem hs.waiting hs.stopped hs.fault

theorem interruptEntry (hs : Running s) (k : InterruptKind) : Running (s.interruptEntry k) := by
  have hmem := State.wf_takeException hs.mem (interruptVector k) s.p.pushedByInterrupt false
  rw [interruptEntry_eq, State.takeException_eq]
  exact ⟨hmem, hs.waiting, hs.stopped, hs.fault⟩

theorem inv_illegalOpcode (hs : Running s) (hop : descriptor s.cfg (s.read s.pc) = none) : Inv s.illegalOpcode := by
  cases hpol : s.cfg.illegalPolicy with
  | strict =>
    simp only [State.illegalOpcode, hpol]
    refine ⟨hs.mem, fun _ => hs.waiting, fun hstopped => absurd (hs.stopped.symm.trans hstopped) nofun, fun f hf => ?_⟩
    cases hf
    exact ⟨hpol, rfl, hop, rfl⟩
  | permissive =>
    simp only [State.illegalOpcode, hpol]
    exact inv_of_quiet hs.mem hs.waiting hs.stopped hs.fault

theorem inv_exec {t : State} {i : Instr} (hs : Running s) (hfetch : s.fetch = .ok i) (h : exec i s = .next t) :
    Inv t := by
  have hcfg := exec_cfg h
  refine ⟨wf_mem_of_exec hs.mem h, fun hnmos => ?_, fun hstopped => ?_, fun f hf => ?_⟩
  · refine (exec_waiting h fun hmn => ?_).trans hs.waiting
    have hcmos := variant_of_fetch_wai hfetch hmn
    rw [← hcfg, hnmos] at hcmos
    cases hcmos
  · by_cases hmn : mnemonicOf i = "STP"
    · exact hcfg ▸ cfg_of_fetch_stp hfetch hmn
    · rw [exec_stopped h hmn, hs.stopped] at hstopped
      cases hstopped
  · rw [exec_fault h, hs.fault] at hf
    cases hf

end Running

/-- Settles O12, by the cases of a step: a stuck core and a waiting one keep what the invariant speaks of, and any other
starts awake, neither stopped nor faulted. -/
theorem stepKeepsInvariant : Obligations.StepKeepsInvariant := by
  intro s t hinv h
  have hmem : s.mem.wf := hinv.1
  obtain ⟨-, -, rfl⟩ | ⟨-, -, -, -, rfl⟩ | ⟨k, -, hstuck, rfl⟩ | ⟨i, -, hstuck, hfetch, hexec⟩ |
    ⟨e, -, hstuck, hfetch, rfl⟩ := step_cases h
  · exact hinv
  · exact hinv
  · exact ((running_wake hmem hstuck).interruptEntry k).inv
  · exact (running_wake hmem hstuck).inv_exec hfetch hexec
  · exact (running_wake hmem hstuck).inv_illegalOpcode (decode_eq_error_iff.mp hfetch).1

end Sys2Proof.Proofs
end

