-- ==== Sys2Proof/Proofs/Encoding.lean ====
section
/-! PROOF. The encoding and the step that runs it (30_encoding.md): decoding and encoding are inverse (R80 to R86, R93),
what a step does with bytes that decode and with an opcode that has no descriptor (R87 to R92), that every step answers
a next state (R97), and PC after an instruction that does not transfer control (R88). Both round trips come from one
fact about an instruction and its row of the opcode table. -/

namespace Sys2Proof.Proofs

open Sys2Proof.Machine

/-! ### An instruction and its row of the opcode table (R80, R81, R83) -/

/-- The entry `d` is the row of the opcode table that the instruction `i` is built by: from `i`'s operand bytes it
builds `i`, whatever bytes follow them, and the operand bytes of what it builds are those it is given, as many as its
mode takes. -/
structure IsRowOf (d : Descriptor) (i : Instr) : Prop where
  entry : tableEntry i.opcode = some d
  build_operands : ∀ rest, d.build ((i.operands ++ rest).getD 0 0) ((i.operands ++ rest).getD 1 0) = i
  operands_build : ∀ b1 b2, (d.build b1 b2).operands = [b1, b2].take d.mode.operandBytes

/-- The two operand bytes of a word, low byte first (R81). -/
theorem operands_word (b1 b2 : Byte) : [loByte (word b2 b1), hiByte (word b2 b1)] = [b1, b2] := by
  rw [loByte_word, hiByte_word]

/-- Every instruction has its row. Only where the operand is a word are bytes put together and taken apart again. -/
theorem exists_isRowOf (i : Instr) : ∃ d, IsRowOf d i := by
  cases i with
  | tsbAbs w | oraAbs w | aslAbs w | oraAbsy w | trbAbs w | oraAbsx w | aslAbsx w | jsr w | bitAbs w | andAbs w
  | rolAbs w | andAbsy w | bitAbsx w | andAbsx w | rolAbsx w | jmpAbs w | eorAbs w | lsrAbs w | eorAbsy w | nop5C w
  | eorAbsx w | lsrAbsx w | jmpInd w | adcAbs w | rorAbs w | adcAbsy w | jmpIax w | adcAbsx w | rorAbsx w | styAbs w
  | staAbs w | stxAbs w | staAbsy w | stzAbs w | staAbsx w | stzAbsx w | ldyAbs w | ldaAbs w | ldxAbs w | ldaAbsy w
  | ldyAbsx w | ldaAbsx w | ldxAbsy w | cpyAbs w | cmpAbs w | decAbs w | cmpAbsy w | nopDC w | cmpAbsx w | decAbsx w
  | cpxAbs w | sbcAbs w | incAbs w | sbcAbsy w | nopFC w | sbcAbsx w | incAbsx w =>
    refine ⟨_, by simp only [Instr.opcode]; rfl, fun _ => ?_, ?_⟩
    · exact congrArg _ (word_hiByte_loByte w)
    · exact operands_word
  | _ =>
    refine ⟨_, by simp only [Instr.opcode]; rfl, fun _ => ?_, fun _ _ => ?_⟩
    · rfl
    · rfl

/-- A table entry is the row of every instruction it builds. -/
theorem isRowOf_build {op : Byte} {d : Descriptor} (hd : tableEntry op = some d) (b1 b2 : Byte) :
    IsRowOf d (d.build b1 b2) := by
  obtain ⟨d', hrow⟩ := exists_isRowOf (d.build b1 b2)
  have hentry := hrow.entry
  rw [opcode_build hd, hd, Option.some_inj] at hentry
  exact hentry ▸ hrow

theorem operandBytes_le_two (m : Mode) : m.operandBytes ≤ 2 := by
  cases m <;> decide

namespace IsRowOf

variable {d : Descriptor} {i : Instr}

/-- The mode of the row gives the number of operand bytes (R80). -/
theorem length_operands (hrow : IsRowOf d i) : i.operands.length = d.mode.operandBytes := by
  rw [← hrow.build_operands [], hrow.operands_build, List.length_take]
  exact Nat.min_eq_left (operandBytes_le_two d.mode)

/-- The mode of the row gives the length (R82). -/
theorem length_encode (hrow : IsRowOf d i) : (encode i).length = d.mode.length := by
  rw [encode, List.length_cons, hrow.length_operands, Mode.length, Nat.add_comm]

theorem mode_eq (hrow : IsRowOf d i) : modeOf i = d.mode := by
  rw [modeOf, hrow.entry]

end IsRowOf

theorem length_encode (i : Instr) : (encode i).length = (modeOf i).length := by
  obtain ⟨d, hrow⟩ := exists_isRowOf i
  rw [hrow.length_encode, hrow.mode_eq]

/-! ### Decoding and encoding are inverse (R80 to R86, R93) -/

/-- When bytes decode: the opcode has a descriptor, and its operand bytes are there. -/
theorem decodeBytes_cons_eq_ok_iff {cfg : Config} {op : Byte} {bs rest : List Byte} {i : Instr} :
    decodeBytes cfg (op :: bs) = .ok (i, rest) ↔
      ∃ d, descriptor cfg op = some d ∧ d.mode.operandBytes ≤ bs.length ∧ d.build (bs.getD 0 0) (bs.getD 1 0) = i ∧
        bs.drop d.mode.operandBytes = rest := by
  rw [decodeBytes]
  cases descriptor cfg op with
  | none => simp
  | some d =>
    by_cases hlen : d.mode.operandBytes ≤ bs.length
    · simp [hlen, Nat.not_lt_of_le]
    · simp [hlen, Nat.lt_of_not_le]

/-- The operand bytes the decoder reads, padded to two, are the first bytes of those it is given. -/
theorem take_pair_getD {n : Nat} {bs : List Byte} (hn : n ≤ 2) (hlen : n ≤ bs.length) :
    [bs.getD 0 0, bs.getD 1 0].take n = bs.take n := by
  match bs, n with
  | _, 0 => rfl
  | _ :: _, 1 => rfl
  | _ :: _ :: _, 2 => rfl

/-- Settles O1: the operand bytes in front of the others are as many as the row takes, and it builds the instruction
from them. -/
theorem decodeOfEncodeIsTheInstruction : Obligations.DecodeOfEncodeIsTheInstruction := by
  intro cfg i rest hwf
  obtain ⟨d, hd⟩ := Option.isSome_iff_exists.mp hwf
  obtain ⟨d', hrow⟩ := exists_isRowOf i
  obtain rfl : d' = d := Option.some_inj.mp (hrow.entry.symm.trans (descriptor_eq_some_iff.mp hd).1)
  have hlen := hrow.length_operands
  rw [encode, List.cons_append]
  refine decodeBytes_cons_eq_ok_iff.mpr ⟨d', hd, ?_, hrow.build_operands rest, List.drop_left' hlen⟩
  rw [List.length_append, hlen]
  exact Nat.le_add_right ..

/-- Settles O2: the row's opcode and the bytes it took are those of the instruction it builds. -/
theorem encodeOfDecodeIsTheBytes : Obligations.EncodeOfDecodeIsTheBytes := by
  intro cfg bs i rest h
  cases bs with
  | nil => cases h
  | cons op bs =>
    obtain ⟨d, hd, hlen, rfl, rfl⟩ := decodeBytes_cons_eq_ok_iff.mp h
    have hentry := (descriptor_eq_some_iff.mp hd).1
    have hop := opcode_build hentry (bs.getD 0 0) (bs.getD 1 0)
    have hrow := isRowOf_build hentry (bs.getD 0 0) (bs.getD 1 0)
    refine ⟨?_, ?_⟩
    · rw [Instr.wellFormed, hop, hd, Option.isSome_some]
    · rw [encode, hop, hrow.operands_build (bs.getD 0 0) (bs.getD 1 0), take_pair_getD (operandBytes_le_two _) hlen,
        List.cons_append, List.take_append_drop]

/-- Settles O3: each word's opcode byte selects its row, which takes the bytes after it. -/
theorem sampleWordsDecode : Obligations.SampleWordsDecode := by
  unfold Obligations.SampleWordsDecode
  decide

/-! ### The step (R87 to R92, R97) -/

/-- A step that runs an instruction has the turn of an instruction, awake (R311, R312). -/
theorem turn_of_runsAnInstruction {s : State} (h : RunsAnInstruction s) : s.turn = .instruction s.wake := by
  obtain ⟨hfault, hstopped, hwaiting, hnmi, hirq⟩ := h
  have hwait : (s.waiting && !s.requested) = false := by
    cases hw : s.waiting with
    | false => rfl
    | true =>
      have hrequested : s.requested = true := (Bool.or_eq_true ..).mpr (hwaiting hw)
      rw [hrequested, Bool.not_true, Bool.and_false]
  have hmasked : (s.irqLine && !s.p.i) = false := by
    obtain hline | hi := hirq
    · rw [hline, Bool.false_and]
    · rw [hi, Bool.not_true, Bool.and_false]
  simp [State.turn, State.stuck, hfault, hstopped, hwait, hnmi, hmasked]

theorem step_of_stuck {s : State} (h : s.stuck = true) : step s = .next s := by
  simp [step, State.turn, h]

/-- Settles O5: the turn is an instruction's, and a waking core fetches the same bytes. -/
theorem stepRunsTheDecodedInstruction : Obligations.StepRunsTheDecodedInstruction := by
  intro s i hruns hdecode
  have hfetch : s.wake.fetch = .ok i := hdecode
  simp only [step, turn_of_runsAnInstruction hruns, hfetch]
  rfl

theorem step_of_no_descriptor {s : State} (hruns : RunsAnInstruction s) (hd : descriptor s.cfg (s.read s.pc) = none) :
    step s = .next s.wake.illegalOpcode := by
  have hfetch : s.wake.fetch = .error (.undefinedOpcode (s.read s.pc)) := decode_eq_error_iff.mpr ⟨hd, rfl⟩
  simp only [step, turn_of_runsAnInstruction hruns, hfetch]

theorem illegalOpcode_strict {s : State} (h : s.cfg.illegalPolicy = .strict) :
    s.illegalOpcode = { s with
      pc := s.pc + 1
      fault := some { kind := .invalidOpcode, opcode := s.read s.pc, address := s.pc } } := by
  simp only [State.illegalOpcode, h]
  rfl

theorem illegalOpcode_permissive {s : State} (h : s.cfg.illegalPolicy = .permissive) :
    s.illegalOpcode = { s with pc := s.pc + 1, cycles := s.cycles + s.cfg.permissiveCycles } := by
  simp only [State.illegalOpcode, h]
  rfl

/-- Settles O6: the step is the policy's, and the strict one leaves a faulted core, which no step changes (log
entry 4). -/
theorem illegalOpcodeFaultsOrSkips : Obligations.IllegalOpcodeFaultsOrSkips := by
  intro s hruns hd
  refine ⟨fun hstrict => ⟨s.wake.illegalOpcode, step_of_no_descriptor hruns hd, step_of_stuck ?_, ?_⟩,
    fun hpermissive => ?_⟩
  · rw [illegalOpcode_strict (s := s.wake) hstrict]
    rfl
  · exact illegalOpcode_strict (s := s.wake) hstrict
  · rw [step_of_no_descriptor hruns hd, illegalOpcode_permissive (s := s.wake) hpermissive]
    rfl

/-- Every operation answers a next state (R303, R305). -/
theorem exists_run_eq_next (m : Meaning) (op : Byte) (s : State) : ∃ t, m.run op s = .next t := by
  cases m with
  | _ => exact ⟨_, rfl⟩

theorem exists_exec_eq_next (i : Instr) (s : State) : ∃ t, exec i s = .next t := by
  obtain ⟨m, hm⟩ := exists_meaning i
  rw [hm.exec_eq]
  exact exists_run_eq_next m i.opcode s

/-- Settles O11: of the turns of a step, only an instruction's could answer otherwise, and no instruction does; an
illegal opcode leaves a next state, which holds the record when the policy is strict (log entry 4). -/
theorem everyStepAnswersNext : Obligations.EveryStepAnswersNext := by
  intro s
  unfold step
  cases s.turn with
  | stuck => exact ⟨s, rfl⟩
  | waitCycle => exact ⟨s.addCycles 1, rfl⟩
  | interrupt k s1 => exact ⟨s1.interruptEntry k, rfl⟩
  | instruction s1 =>
    dsimp only
    cases s1.fetch with
    | ok i => exact exists_exec_eq_next i s1
    | error e => exact ⟨s1.illegalOpcode, rfl⟩

/-! ### PC after an instruction (R88) -/

/-- The mnemonics of the instructions that set PC themselves. -/
def controlTransfers : List String :=
  ["BCC", "BCS", "BEQ", "BNE", "BMI", "BPL", "BVC", "BVS", "BRA", "JMP", "JSR", "RTS", "BRK", "RTI",
    "BBR0", "BBR1", "BBR2", "BBR3", "BBR4", "BBR5", "BBR6", "BBR7",
    "BBS0", "BBS1", "BBS2", "BBS3", "BBS4", "BBS5", "BBS6", "BBS7"]

/-- An operation transfers control, or moves PC past the bytes of its mode. -/
theorem controlTransfers_or_run_pc {m : Meaning} {op : Byte} {s t : State} (h : m.run op s = .next t) :
    m.mnemonics ⊆ controlTransfers ∨ t.pc = s.pc + BitVec.ofNat 16 m.mode.length := by
  cases m with
  | branch | branchOnBit | jmpAbs | jmpInd | jmpIax | jsr | rts | brk | rti =>
    left
    simp only [Meaning.mnemonics]
    decide
  | load r | transfer _ r | stepReg r | pull r =>
    right
    cases h
    cases r <;> rfl
  | _ =>
    right
    cases h
    rfl

/-- Settles O21: an operation that is no transfer moves PC by its mode's length, which is the encoding's. -/
theorem sequentialInstructionsAdvancePC : Obligations.SequentialInstructionsAdvancePC := by
  intro i s t h hmn
  obtain ⟨m, hm⟩ := exists_meaning i
  rw [hm.exec_eq] at h
  rw [length_encode, hm.mode_eq]
  exact (controlTransfers_or_run_pc h).resolve_left fun hsub => hmn (hsub hm.mnemonic_mem)

end Sys2Proof.Proofs
end

