-- ==== Sys2Proof/Proofs/Addressing.lean ====
section
/-! PROOF. The address-mode resolver (40_addressing.md): the effective address and value of every operand mode (R110, R113
to R122), and the page-cross cycle of the indexed modes (R112, R350, R352). -/

namespace Sys2Proof.Proofs

open Sys2Proof.Machine

/-! ### Effective addresses (R113 to R122) -/

/-- A pointer in page zero, its high byte's address taken mod 256 (R51, `Read16ZP`). -/
theorem read16ZP_toNat (s : State) (z : Byte) :
    (s.read16ZP z).toNat = (s.mem.read z.toNat).toNat + 256 * (s.mem.read ((z.toNat + 1) % 256)).toNat := by
  obtain ⟨-, hzp, -⟩ := wordReadsAreLittleEndian s 0 z
  exact hzp

/-- Indexing in page zero stays there (R115). -/
theorem zeroPage_add_toNat (z r : Byte) : (zeroPage (z + r)).toNat = (z.toNat + r.toNat) % 256 := by
  rw [zeroPage_toNat, BitVec.toNat_add]

/-- Indexing a 16-bit address wraps at 65,536 (R117, R121). -/
theorem addr_add_byte_toNat (w : Addr) (r : Byte) : (w + r.setWidth 16).toNat = (w.toNat + r.toNat) % 65536 := by
  rw [BitVec.toNat_add, BitVec.toNat_setWidth_of_le (by decide)]

/-- The pointer of `indx` is indexed in page zero, and so is the address of its high byte (R119). -/
theorem read16ZP_add_toNat (s : State) (z r : Byte) :
    (s.read16ZP (z + r)).toNat = (s.mem.read ((z.toNat + r.toNat) % 256)).toNat +
      256 * (s.mem.read ((z.toNat + r.toNat + 1) % 256)).toNat := by
  rw [read16ZP_toNat, BitVec.toNat_add, Nat.mod_add_mod]

/-- Only `imm` has its value in the instruction; every other mode reads it (R110). -/
theorem value_eq_read_ea {o : Operand} (s : State) (h : o.mode ≠ .imm) : o.value s = s.mem.read (o.ea s).toNat := by
  cases o with
  | imm => exact absurd rfl h
  | _ => rfl

/-- Settles O29: each mode's address is a constant, an indexed address or a pointer in page zero. -/
theorem effectiveAddresses : Obligations.EffectiveAddresses := by
  intro s z w
  have hindy : ((Operand.indy z).ea s).toNat = ((s.mem.read z.toNat).toNat +
      256 * (s.mem.read ((z.toNat + 1) % 256)).toNat + s.y.toNat) % 65536 := by
    rw [Operand.ea, addr_add_byte_toNat, read16ZP_toNat]
  exact ⟨addr_add_one_toNat s.pc, rfl, zeroPage_toNat z, zeroPage_add_toNat z s.x, zeroPage_add_toNat z s.y, rfl,
    addr_add_byte_toNat w s.x, addr_add_byte_toNat w s.y, read16ZP_add_toNat s z s.x, hindy, read16ZP_toNat s z,
    fun _ => value_eq_read_ea s⟩

/-! ### The page-cross cycle (R112, R350, R352) -/

theorem pageDiffers_add_byte_iff (w : Addr) (r : Byte) :
    pageDiffers (w + r.setWidth 16) w = true ↔ (w.toNat + r.toNat) % 65536 / 256 ≠ w.toNat / 256 := by
  rw [pageDiffers_eq, addr_add_byte_toNat, Bool.not_eq_true', decide_eq_false_iff_not]

/-- The penalty, once it is known when the operand crosses a page. -/
theorem penalty_eq_of_crosses_iff {o : Operand} {s : State} {P : Prop} [Decidable P] (op : Byte)
    (h : o.crosses s = true ↔ P) :
    o.penalty op s = if pageCrossSensitive s.cfg op = true ∧ P then 1 else 0 :=
  if_congr (by rw [Bool.and_eq_true, h]) rfl rfl

/-- The modes that are not indexed across a page never cross one (R112). -/
theorem crosses_eq_false {o : Operand} (s : State) (h : o.mode ∉ [.absx, .absy, .indy]) : o.crosses s = false := by
  cases o with
  | absx | absy | indy => exact absurd (by simp [Operand.mode]) h
  | _ => rfl

/-- The mnemonics of the reference `PAGE_CROSS_SET` (R352). -/
def readMnemonics : List String :=
  ["ADC", "AND", "BIT", "CMP", "EOR", "LDA", "LDX", "LDY", "ORA", "SBC"]

/-- Row by row, the table marks the reference set of R352: the read instructions in the indexed modes. -/
theorem pageCross_iff_of_row : ∀ row ∈ opcodeRows, ∀ d ∈ row,
    (d.pageCross = true ↔ d.mode ∈ [.absx, .absy, .indy] ∧ d.mnemonic ∈ readMnemonics) := by
  decide

theorem pageCrossSensitive_reference_iff {cfg : Config} (hcfg : cfg.pageCrossSet = .reference) (op : Byte) :
    pageCrossSensitive cfg op = true ↔ ∃ d, tableEntry op = some d ∧ d.pageCross = true := by
  rw [pageCrossSensitive, hcfg]
  cases tableEntry op <;> simp

theorem pageCross_iff_of_tableEntry {op : Byte} {d : Descriptor} (hd : tableEntry op = some d) :
    d.pageCross = true ↔ d.mode ∈ [.absx, .absy, .indy] ∧ d.mnemonic ∈ readMnemonics := by
  obtain ⟨row, hrow, hcell⟩ := exists_row_of_tableEntry hd
  exact pageCross_iff_of_row row (List.mem_of_getElem? hrow) d (List.mem_of_getElem? hcell)

/-- Settles O30: the three modes cross when the indexed address leaves its base's page, and the rest is the table. -/
theorem pageCrossCostsOneCycle : Obligations.PageCrossCostsOneCycle := by
  intro s op z w
  refine ⟨penalty_eq_of_crosses_iff op (pageDiffers_add_byte_iff w s.x),
    penalty_eq_of_crosses_iff op (pageDiffers_add_byte_iff w s.y),
    penalty_eq_of_crosses_iff op (pageDiffers_add_byte_iff (s.read16ZP z) s.y), fun o ho => ?_, fun hcfg => ?_⟩
  · rw [Operand.penalty, crosses_eq_false s ho, Bool.and_false]
    rfl
  · rw [pageCrossSensitive_reference_iff hcfg]
    exact exists_congr fun d => and_congr_right pageCross_iff_of_tableEntry

end Sys2Proof.Proofs
end

