-- ==== Sys2Proof/Proofs/LoadStore.lean ====
section
/-! PROOF. Loads, stores and register transfers (41_load_store_transfer.md R140 to R152). Each list of operand forms runs
one shared operation, so a claim about a list is one fact about the list and one about its operation. -/

namespace Sys2Proof.Proofs

open Sys2Proof.Machine

/-! ### The operand forms of an instruction (R80, R84 to R86) -/

/-- The form is a row of the opcode table with the mnemonic `mn`, and executing it is the operation `run` on the form's
opcode byte and operand. -/
structure RunsAs (f : Form) (mn : String) (run : Byte → Operand → State → Result) : Prop where
  encoded : f.encoded mn
  exec_eq : ∀ s, exec f.instr s = run f.op f.operand s

/-- A list of forms runs as one operation when opcodes, rows and meanings agree place by place. For a concrete list each
agreement is an equation that `rfl` closes; `hrow` takes the form apart by a pattern because the table's lookup reduces
on an opcode byte, not on a projection. -/
theorem runsAs_of_map_eq {fs : List Form} {mn : String} {run : Byte → Operand → State → Result}
    (hop : fs.map (fun f => f.instr.opcode) = fs.map (fun f => f.op))
    (hrow : fs.map (fun ⟨op, _, _, _⟩ => (tableEntry op).map fun d => (d.mnemonic, d.mode, d.avail)) =
      fs.map fun f => some (mn, f.operand.mode, f.avail))
    (hexec : ∀ s, fs.map (fun f => exec f.instr s) = fs.map fun f => run f.op f.operand s) :
    ∀ f ∈ fs, RunsAs f mn run :=
  fun f hf => ⟨encodedAs_of (List.map_inj_left.mp hop f hf) (List.map_inj_left.mp hrow f hf),
    fun s => List.map_inj_left.mp (hexec s) f hf⟩

section
variable (b : Byte) (w : Addr)

theorem ldaForms_runAs : ∀ f ∈ ldaForms b w, RunsAs f "LDA" (load .a) :=
  runsAs_of_map_eq rfl rfl fun _ => rfl

theorem ldxForms_runAs : ∀ f ∈ ldxForms b w, RunsAs f "LDX" (load .x) :=
  runsAs_of_map_eq rfl rfl fun _ => rfl

theorem ldyForms_runAs : ∀ f ∈ ldyForms b w, RunsAs f "LDY" (load .y) :=
  runsAs_of_map_eq rfl rfl fun _ => rfl

theorem staForms_runAs : ∀ f ∈ staForms b w, RunsAs f "STA" fun op o s => store s.a op o s :=
  runsAs_of_map_eq rfl rfl fun _ => rfl

theorem stxForms_runAs : ∀ f ∈ stxForms b w, RunsAs f "STX" fun op o s => store s.x op o s :=
  runsAs_of_map_eq rfl rfl fun _ => rfl

theorem styForms_runAs : ∀ f ∈ styForms b w, RunsAs f "STY" fun op o s => store s.y op o s :=
  runsAs_of_map_eq rfl rfl fun _ => rfl

theorem stzForms_runAs : ∀ f ∈ stzForms b w, RunsAs f "STZ" fun op o s => store 0 op o s :=
  runsAs_of_map_eq rfl rfl fun _ => rfl

end

/-! ### Loads (R140 to R142) -/

/-- `NZ(v)`: N is bit 7 of the value and Z is whether it is 0 (R11). -/
theorem nz_eq (p : Status) (v : Byte) : p.nz v = { p with n := v.getLsbD 7, z := decide (v = 0) } := by
  rw [Status.nz, msb_eq_bit7, beq_eq_decide]

/-- A load of any register, as one record over the state it starts from. -/
theorem load_eq_setReg (r : Reg) (op : Byte) (o : Operand) (s : State) :
    load r op o s = .next { s.setReg r (o.value s) with
      p := s.p.nz (o.value s)
      pc := s.pc + BitVec.ofNat 16 o.mode.length
      cycles := s.cycles + baseCycles s.cfg op + o.penalty op s } := by
  cases r with
  | a => exact load_a_eq op o s
  | x => exact load_x_eq op o s
  | y => exact load_y_eq op o s

/-- What a form that loads does: the register, N and Z from the operand value, PC and cycles, and nothing else. -/
theorem RunsAs.load_spec {f : Form} {mn : String} {r : Reg} (h : RunsAs f mn (load r)) (s : State) :
    f.encoded mn ∧ ∀ v, f.operand.value s = v → exec f.instr s = .next { s.setReg r v with
      p := { s.p with n := v.getLsbD 7, z := decide (v = 0) }
      pc := f.nextPC s
      cycles := f.cyclesAfter s } := by
  refine ⟨h.encoded, ?_⟩
  rintro v rfl
  rw [h.exec_eq, load_eq_setReg, nz_eq]
  rfl

/-- Settles O35: every form in the three lists is a load of its register. -/
theorem loadsSetRegisterAndNZ : Obligations.LoadsSetRegisterAndNZ := fun s b w =>
  ⟨fun f hf => (ldaForms_runAs b w f hf).load_spec s, fun f hf => (ldxForms_runAs b w f hf).load_spec s,
    fun f hf => (ldyForms_runAs b w f hf).load_spec s⟩

/-! ### Stores (R143 to R146) -/

/-- What a form that stores does: one byte at the effective address, PC and cycles, and nothing else. -/
theorem RunsAs.store_spec {f : Form} {mn : String} {val : State → Byte}
    (h : RunsAs f mn fun op o s => store (val s) op o s) (s : State) :
    f.encoded mn ∧ ∃ t, exec f.instr s = .next t ∧ OnlyStored s t (f.operand.ea s) (val s) ∧
      t = { s with mem := t.mem, pc := f.nextPC s, cycles := f.cyclesAfter s } :=
  ⟨h.encoded, _, (h.exec_eq s).trans (store_eq ..), onlyStored_write s _ _, rfl⟩

/-- Settles O36: every form in the four lists is a store of its register, or of 0. -/
theorem storesWriteOneByte : Obligations.StoresWriteOneByte := fun s b w =>
  ⟨fun f hf => (staForms_runAs b w f hf).store_spec s, fun f hf => (stxForms_runAs b w f hf).store_spec s,
    fun f hf => (styForms_runAs b w f hf).store_spec s, fun f hf => (stzForms_runAs b w f hf).store_spec s⟩

/-! ### Transfers (R147 to R152) -/

/-- A transfer to any register, as one record over the state it starts from: the register, N and Z from the value, PC
and cycles (R147 to R151). -/
theorem transfer_eq_setReg (v : Byte) (r : Reg) (op : Byte) (s : State) :
    transfer v r op s = .next { s.setReg r v with
      p := { s.p with n := v.getLsbD 7, z := decide (v = 0) }
      pc := s.pc + 1
      cycles := s.cycles + baseCycles s.cfg op } := by
  rw [transfer_eq, State.setNZ, State.setReg_p, nz_eq]
  cases r <;> rfl

/-- Settles O37: five of the instructions are the shared transfer, and TXS sets SP alone. -/
theorem transfersCopyRegisters : Obligations.TransfersCopyRegisters := fun s =>
  ⟨⟨encodedAs_of rfl rfl, transfer_eq_setReg s.a .x 0xAA s⟩,
    ⟨encodedAs_of rfl rfl, transfer_eq_setReg s.a .y 0xA8 s⟩,
    ⟨encodedAs_of rfl rfl, transfer_eq_setReg s.x .a 0x8A s⟩,
    ⟨encodedAs_of rfl rfl, transfer_eq_setReg s.y .a 0x98 s⟩,
    ⟨encodedAs_of rfl rfl, transfer_eq_setReg s.sp .x 0xBA s⟩,
    ⟨encodedAs_of rfl rfl, rfl⟩⟩

end Sys2Proof.Proofs
end

