-- ==== Sys2Proof/Proofs/Alu.lean ====
section
/-! PROOF. The ALU's add and subtract (42_arithmetic.md R158 to R165): the binary functions are integer addition and
subtraction, the decimal ones leave the packed decimal form of the sum or difference when their operands are valid BCD. -/

namespace Sys2Proof.Proofs

open Sys2Proof.Machine

/-! ### N and Z of a result (R160) -/

theorem msb_iff (v : Byte) : v.msb = true ↔ 128 ≤ v.toNat := by
  rw [BitVec.msb_eq_decide, decide_eq_true_eq]

theorem beq_zero_iff (v : Byte) : (v == 0) = true ↔ v.toNat = 0 := by
  rw [beq_iff_eq, ← BitVec.toNat_inj]
  rfl

/-! ### Binary add (R160) -/

section
variable (a m : Byte) (cin : Bool)

theorem addBin_r_toNat : (addBin a m cin).r.toNat = (a.toNat + m.toNat + cin.toNat) % 256 :=
  BitVec.toNat_ofNat _ _

theorem addBin_c_iff : (addBin a m cin).c = true ↔ 256 ≤ a.toNat + m.toNat + cin.toNat :=
  decide_eq_true_iff

theorem and_signBit_ne_zero : ∀ v : Byte, (v &&& 0x80 != 0) = v.msb := by decide

theorem msb_xor_msb_iff (v r : Byte) : (v.msb ^^ r.msb) = true ↔ ¬(128 ≤ v.toNat ↔ 128 ≤ r.toNat) := by
  rw [← msb_iff, ← msb_iff, ← Bool.eq_iff_iff]
  exact bne_iff_ne

/-- V by the sign test of R160: both operands' signs differ from the result's. -/
theorem addBin_v_iff_signs :
    (addBin a m cin).v = true ↔
      ¬(128 ≤ a.toNat ↔ 128 ≤ (addBin a m cin).r.toNat) ∧ ¬(128 ≤ m.toNat ↔ 128 ≤ (addBin a m cin).r.toNat) := by
  rw [← msb_xor_msb_iff, ← msb_xor_msb_iff, ← Bool.and_eq_true, ← BitVec.msb_xor, ← BitVec.msb_xor, ← BitVec.msb_and,
    ← and_signBit_ne_zero]
  rfl

/-- The sign test is the overflow of the signed sum: a case for each pair of operand signs. -/
theorem addBin_v_iff :
    (addBin a m cin).v = true ↔ a.toInt + m.toInt + cin.toNat < -128 ∨ 127 < a.toInt + m.toInt + cin.toNat := by
  have hcin := Bool.toNat_le cin
  have ha := a.isLt
  have hm := m.isLt
  rw [addBin_v_iff_signs, addBin_r_toNat, BitVec.toInt_eq_toNat_cond, BitVec.toInt_eq_toNat_cond]
  split <;> split <;> omega

end

/-- Settles O31: N and Z are read off the result, and V is the sign test. -/
theorem binaryAddMatchesIntegers : Obligations.BinaryAddMatchesIntegers := fun a m cin =>
  ⟨addBin_r_toNat a m cin, addBin_c_iff a m cin, addBin_v_iff a m cin, msb_iff _, beq_zero_iff _⟩

/-! ### Binary subtract (R163) -/

theorem complement_toNat (m : Byte) : (m ^^^ 0xFF).toNat = 255 - m.toNat := by
  have hnot := BitVec.toNat_not (x := m)
  rw [← BitVec.xor_allOnes] at hnot
  exact hnot

theorem complement_toInt : ∀ m : Byte, (m ^^^ 0xFF).toInt = -1 - m.toInt := by decide

section
variable (a m : Byte) (cin : Bool)

theorem subBin_r_toNat :
    ((subBin a m cin).r.toNat : Int) = ((a.toNat : Int) - m.toNat - (1 - cin.toNat)) % 256 := by
  have hm := m.isLt
  rw [subBin, addBin_r_toNat, complement_toNat]
  omega

theorem subBin_c_iff : (subBin a m cin).c = true ↔ 0 ≤ (a.toNat : Int) - m.toNat - (1 - cin.toNat) := by
  have hm := m.isLt
  rw [subBin, addBin_c_iff, complement_toNat]
  omega

theorem subBin_v_iff :
    (subBin a m cin).v = true ↔
      a.toInt - m.toInt - (1 - cin.toNat) < -128 ∨ 127 < a.toInt - m.toInt - (1 - cin.toNat) := by
  rw [subBin, addBin_v_iff, complement_toInt]
  omega

end

/-- Settles O32: the complement of `m` is 255 less `m`, and -1 less `m` when signed. -/
theorem binarySubtractMatchesIntegers : Obligations.BinarySubtractMatchesIntegers := fun a m cin =>
  ⟨subBin_r_toNat a m cin, subBin_c_iff a m cin, subBin_v_iff a m cin, rfl⟩

/-! ### The choice of the decimal algorithm (R158) -/

theorem decimalByRule_iff (cfg : Config) (a m : Byte) :
    decimalByRule cfg a m = true ↔
      ¬(cfg.decimalNonBcd = .implementation ∧ ¬(validBcd a = true ∧ validBcd m = true)) := by
  rw [decimalByRule, Bool.or_eq_true, Bool.and_eq_true, beq_iff_eq]
  cases cfg.decimalNonBcd <;> simp

section
variable (cfg : Config) {a m : Byte} (cin : Bool)

theorem adcDec_eq :
    adcDec cfg a m cin =
      if cfg.decimalNonBcd = .implementation ∧ ¬(validBcd a = true ∧ validBcd m = true) then
        Config.nonBcdAdd cfg.variant a m cin
      else if cfg.variant = .nmos then adcDecNmos a m cin
      else adcDecCmos a m cin := by
  simp only [adcDec, decimalByRule_iff, ite_not]
  cases cfg.variant <;> rfl

theorem sbcDec_eq :
    sbcDec cfg a m cin =
      if cfg.decimalNonBcd = .implementation ∧ ¬(validBcd a = true ∧ validBcd m = true) then
        Config.nonBcdSub cfg.variant a m cin
      else if cfg.variant = .nmos then sbcDecNmos a m cin
      else sbcDecCmos a m cin := by
  simp only [sbcDec, decimalByRule_iff, ite_not]
  cases cfg.variant <;> rfl

variable (ha : validBcd a = true) (hm : validBcd m = true)
include ha hm

theorem adcDec_of_validBcd :
    adcDec cfg a m cin = if cfg.variant = .nmos then adcDecNmos a m cin else adcDecCmos a m cin := by
  rw [adcDec_eq, if_neg fun ⟨_, hinvalid⟩ => hinvalid ⟨ha, hm⟩]

theorem sbcDec_of_validBcd :
    sbcDec cfg a m cin = if cfg.variant = .nmos then sbcDecNmos a m cin else sbcDecCmos a m cin := by
  rw [sbcDec_eq, if_neg fun ⟨_, hinvalid⟩ => hinvalid ⟨ha, hm⟩]

end

/-! ### Packed BCD (R158) -/

theorem validBcd_iff (v : Byte) : validBcd v = true ↔ v.toNat / 16 ≤ 9 ∧ v.toNat % 16 ≤ 9 := by
  rw [validBcd, Bool.and_eq_true, decide_eq_true_eq, decide_eq_true_eq]

/-- The number a packed BCD byte stands for: its high nibble counts tens (R158, `A_dec`). -/
def bcdValue (v : Byte) : Nat := 10 * (v.toNat / 16) + v.toNat % 16

/-- The packed decimal form of a number: its two low decimal digits as nibbles, and 256 for each hundred. A negative
number has a negative count of hundreds. -/
def packed (n : Int) : Int := n / 10 / 10 * 256 + n / 10 % 10 * 16 + n % 10

theorem packed_emod (n : Int) : packed n % 256 = n / 10 % 10 * 16 + n % 10 := by
  rw [packed]
  omega

theorem le_packed_iff (n : Int) : 256 ≤ packed n ↔ 100 ≤ n := by
  rw [packed]
  omega

/-- The low byte of the packed form of a number is valid BCD and stands for the number mod 100. -/
theorem bcd_of_toNat_eq_packed {r : Byte} {n : Int} (h : (r.toNat : Int) = packed n % 256) :
    validBcd r = true ∧ (bcdValue r : Int) = n % 100 := by
  rw [packed_emod] at h
  rw [validBcd_iff, bcdValue]
  omega

/-! The nibble corrections of R161, R164 and R165, on decimal digits: a sum or difference of nibbles, corrected by 6 where
the low digit carries or borrows and by 96 where the high one does, is the packed form of the decimal sum or difference. -/

section
variable {ah al mh ml cin : Nat} (hah : ah ≤ 9) (hal : al ≤ 9) (hmh : mh ≤ 9) (hml : ml ≤ 9) (hcin : cin ≤ 1)
include hah hal hmh hml hcin

/-- The sum of R161. -/
theorem correctedSum_eq_packed {low s : Nat}
    (hlow : low = if al + ml + cin < 10 then al + ml + cin else (al + ml + cin + 6) % 16 + 16)
    (hs : s = ah * 16 + mh * 16 + low) :
    ((if s < 160 then s else s + 96 : Nat) : Int) = packed ((10 * ah + al : Nat) + (10 * mh + ml : Nat) + cin) := by
  rw [packed]
  split at hlow <;> split <;> omega

/-- The difference of R164, whose low nibble is corrected before the high nibbles are subtracted. -/
theorem correctedDifference_eq_packed {low corrected s : Int} (hlow : low = (al : Int) - ml + cin - 1)
    (hcorrected : corrected = if low < 0 then (low - 6) % 16 - 16 else low)
    (hs : s = (ah * 16 : Nat) - (mh * 16 : Nat) + corrected) :
    (if s < 0 then s - 96 else s) = packed ((10 * ah + al : Nat) - (10 * mh + ml : Nat) - (1 - cin)) := by
  rw [packed]
  split at hcorrected <;> split <;> omega

/-- The difference of R165, whose corrections are subtracted from the binary difference. -/
theorem correctedBinaryDifference_eq_packed {a m : Nat} {low d : Int} (ha : 16 * ah + al = a) (hm : 16 * mh + ml = m)
    (hlow : low = (al : Int) - ml + cin - 1) (hd : d = (a : Int) - m + cin - 1) :
    d - (if d < 0 then 96 else 0) - (if low < 0 then 6 else 0) =
      packed ((10 * ah + al : Nat) - (10 * mh + ml : Nat) - (1 - cin)) := by
  rw [packed]
  split <;> split <;> omega

end

/-! ### Decimal add (R161, R162) -/

theorem highNibble_toInt : ∀ v : Byte, (v &&& 0xF0).toInt = v.toInt / 16 * 16 := by decide

theorem testBit_seven_iff (n : Nat) : n.testBit 7 = true ↔ 128 ≤ n % 256 := by
  rw [Nat.testBit_eq_decide_div_mod_eq, decide_eq_true_eq]
  omega

/-- The algorithm of R161 on all operands: `al`, `s` and `t` are R161's AL after its correction, S before its own, and
T. -/
theorem adcDecNmos_spec {a m : Byte} {cin : Bool} {al s : Nat} {t : Int}
    (hal : al = if a.toNat % 16 + m.toNat % 16 + cin.toNat < 10 then a.toNat % 16 + m.toNat % 16 + cin.toNat
      else (a.toNat % 16 + m.toNat % 16 + cin.toNat + 6) % 16 + 16)
    (hs : s = a.toNat / 16 * 16 + m.toNat / 16 * 16 + al) (ht : t = a.toInt / 16 * 16 + m.toInt / 16 * 16 + al) :
    (adcDecNmos a m cin).r.toNat = (if s < 160 then s else s + 96) % 256 ∧
      ((adcDecNmos a m cin).n = true ↔ 128 ≤ s % 256) ∧
      ((adcDecNmos a m cin).v = true ↔ t < -128 ∨ 127 < t) ∧
      ((adcDecNmos a m cin).z = true ↔ (a.toNat + m.toNat + cin.toNat) % 256 = 0) ∧
      ((adcDecNmos a m cin).c = true ↔ 256 ≤ if s < 160 then s else s + 96) := by
  have heq : adcDecNmos a m cin =
      { r := BitVec.ofNat 8 (if s < 160 then s else s + 96)
        n := s.testBit 7
        v := t < -128 || t > 127
        z := (a.toNat + m.toNat + cin.toNat) % 256 == 0
        c := 256 ≤ if s < 160 then s else s + 96 } := by
    subst hal hs ht
    simp only [adcDecNmos, lowNibble_toNat, highNibble_toNat, highNibble_toInt, ge_iff_le, ← Nat.not_lt, ite_not]
  rw [heq]
  refine ⟨BitVec.toNat_ofNat _ _, testBit_seven_iff s, ?_, beq_iff_eq, decide_eq_true_iff⟩
  rw [Bool.or_eq_true, decide_eq_true_eq, decide_eq_true_eq]

/-- The decimal law of ADC for the algorithm of R161, whose result and C are also R162's. -/
theorem adcDecNmos_decimal {a m : Byte} (cin : Bool) (ha : validBcd a = true) (hm : validBcd m = true) :
    validBcd (adcDecNmos a m cin).r = true ∧
      bcdValue (adcDecNmos a m cin).r = (bcdValue a + bcdValue m + cin.toNat) % 100 ∧
      ((adcDecNmos a m cin).c = true ↔ 100 ≤ bcdValue a + bcdValue m + cin.toNat) := by
  obtain ⟨hr, -, -, -, hc⟩ := adcDecNmos_spec (a := a) (m := m) (cin := cin) rfl rfl rfl
  obtain ⟨hah, hal⟩ := (validBcd_iff a).mp ha
  obtain ⟨hmh, hml⟩ := (validBcd_iff m).mp hm
  have hsum := correctedSum_eq_packed hah hal hmh hml (Bool.toNat_le cin) rfl rfl
  have hpacked : ((adcDecNmos a m cin).r.toNat : Int) = packed (bcdValue a + bcdValue m + cin.toNat) % 256 := by
    rw [hr, Int.natCast_mod, hsum]
    rfl
  obtain ⟨hvalid, hvalue⟩ := bcd_of_toNat_eq_packed hpacked
  have hcarry := le_packed_iff (bcdValue a + bcdValue m + cin.toNat)
  refine ⟨hvalid, by exact_mod_cast hvalue, ?_⟩
  rw [hc, ← Int.ofNat_le, hsum]
  exact_mod_cast hcarry

/-- Settles O33: on valid BCD the corrected sum is the packed form of the decimal sum, and the rest is R161 itself. -/
theorem decimalAddLaw : Obligations.DecimalAddLaw := by
  refine ⟨fun cfg a m cin ha hm => ?_, fun a m cin al s t hal hs ht =>
    ⟨adcDecNmos_spec hal hs ht, rfl, msb_iff _, rfl, beq_zero_iff _, rfl⟩⟩
  rw [adcDec_of_validBcd cfg cin ha hm]
  refine ⟨rfl, ?_⟩
  split <;> exact adcDecNmos_decimal cin ha hm

/-! ### Decimal subtract (R164, R165) -/

theorem ofInt_toNat (n : Int) : ((BitVec.ofInt 8 n).toNat : Int) = n % 256 := by
  rw [BitVec.toNat_ofInt]
  omega

theorem sbcDecNmos_r_toNat {a m : Byte} {cin : Bool} {low al s : Int}
    (hlow : low = (a.toNat % 16 : Nat) - (m.toNat % 16 : Nat) + (cin.toNat : Int) - 1)
    (hal : al = if low < 0 then (low - 6) % 16 - 16 else low)
    (hs : s = (a.toNat / 16 * 16 : Nat) - (m.toNat / 16 * 16 : Nat) + al) :
    ((sbcDecNmos a m cin).r.toNat : Int) = (if s < 0 then s - 96 else s) % 256 := by
  subst hlow hal hs
  simp only [sbcDecNmos, lowNibble_toNat, highNibble_toNat, ofInt_toNat]

theorem sbcDecCmos_r_toNat {a m : Byte} {cin : Bool} {low d : Int}
    (hlow : low = (a.toNat % 16 : Nat) - (m.toNat % 16 : Nat) + (cin.toNat : Int) - 1)
    (hd : d = (a.toNat : Int) - m.toNat + cin.toNat - 1) :
    ((sbcDecCmos a m cin).r.toNat : Int) = (d - (if d < 0 then 96 else 0) - (if low < 0 then 6 else 0)) % 256 := by
  subst hlow hd
  simp only [sbcDecCmos, lowNibble_toNat, ofInt_toNat, sub_ite, sub_zero]

section
variable {a m : Byte} (cin : Bool) (ha : validBcd a = true) (hm : validBcd m = true)
include ha hm

theorem sbcDecNmos_r_eq_packed :
    ((sbcDecNmos a m cin).r.toNat : Int) = packed (bcdValue a - bcdValue m - (1 - cin.toNat)) % 256 := by
  obtain ⟨hah, hal⟩ := (validBcd_iff a).mp ha
  obtain ⟨hmh, hml⟩ := (validBcd_iff m).mp hm
  rw [sbcDecNmos_r_toNat rfl rfl rfl, correctedDifference_eq_packed hah hal hmh hml (Bool.toNat_le cin) rfl rfl rfl]
  rfl

theorem sbcDecCmos_r_eq_packed :
    ((sbcDecCmos a m cin).r.toNat : Int) = packed (bcdValue a - bcdValue m - (1 - cin.toNat)) % 256 := by
  obtain ⟨hah, hal⟩ := (validBcd_iff a).mp ha
  obtain ⟨hmh, hml⟩ := (validBcd_iff m).mp hm
  rw [sbcDecCmos_r_toNat rfl rfl, correctedBinaryDifference_eq_packed hah hal hmh hml (Bool.toNat_le cin)
    (Nat.div_add_mod ..) (Nat.div_add_mod ..) rfl rfl]
  rfl

/-- On valid BCD the binary difference borrows exactly when the decimal one does. -/
theorem subBin_c_iff_decimal :
    (subBin a m cin).c = true ↔ 0 ≤ (bcdValue a : Int) - bcdValue m - (1 - cin.toNat) := by
  rw [validBcd_iff] at ha hm
  have hcin := Bool.toNat_le cin
  rw [subBin_c_iff, bcdValue, bcdValue]
  omega

end

/-- Settles O34: on valid BCD both corrected differences are the packed form of the decimal difference, and the flags are
those of the binary subtract or of the result. -/
theorem decimalSubtractLaw : Obligations.DecimalSubtractLaw := by
  refine ⟨fun cfg a m cin ha hm => ?_, fun a m cin low al s d hlow hal hs hd =>
    ⟨⟨sbcDecNmos_r_toNat hlow hal hs, rfl, rfl, rfl, rfl⟩,
      sbcDecCmos_r_toNat hlow hd, msb_iff _, rfl, beq_zero_iff _, rfl⟩⟩
  have hc := subBin_c_iff_decimal cin ha hm
  rw [sbcDec_of_validBcd cfg cin ha hm]
  refine ⟨rfl, ?_⟩
  split
  · obtain ⟨hvalid, hvalue⟩ := bcd_of_toNat_eq_packed (sbcDecNmos_r_eq_packed cin ha hm)
    exact ⟨hvalid, hvalue, hc⟩
  · obtain ⟨hvalid, hvalue⟩ := bcd_of_toNat_eq_packed (sbcDecCmos_r_eq_packed cin ha hm)
    exact ⟨hvalid, hvalue, hc⟩

end Sys2Proof.Proofs
end

