-- ==== Sys2Proof/Proofs/Arithmetic.lean ====
section
/-! PROOF. Add, subtract, compare, increment and decrement (42_arithmetic.md R166 to R177): what each operation does to the
state, given what the ALU answers, and the forms and registers that run it. -/

namespace Sys2Proof.Proofs

open Sys2Proof.Machine

/-! ### The operand forms (R166 to R173) -/

section
variable (b : Byte) (w : Addr)

theorem adcForms_runAs : ∀ f ∈ adcForms b w, RunsAs f "ADC" (addSub aluAdd) :=
  runsAs_of_map_eq rfl rfl fun _ => rfl

theorem sbcForms_runAs : ∀ f ∈ sbcForms b w, RunsAs f "SBC" (addSub aluSub) :=
  runsAs_of_map_eq rfl rfl fun _ => rfl

theorem cmpForms_runAs : ∀ f ∈ cmpForms b w, RunsAs f "CMP" (compareWith .a) :=
  runsAs_of_map_eq rfl rfl fun _ => rfl

theorem cpxForms_runAs : ∀ f ∈ cpxForms b w, RunsAs f "CPX" (compareWith .x) :=
  runsAs_of_map_eq rfl rfl fun _ => rfl

theorem cpyForms_runAs : ∀ f ∈ cpyForms b w, RunsAs f "CPY" (compareWith .y) :=
  runsAs_of_map_eq rfl rfl fun _ => rfl

theorem incMemoryForms_runAs : ∀ f ∈ incMemoryForms b w, RunsAs f "INC" (stepMem (· + 1)) :=
  runsAs_of_map_eq rfl rfl fun _ => rfl

theorem decMemoryForms_runAs : ∀ f ∈ decMemoryForms b w, RunsAs f "DEC" (stepMem (· - 1)) :=
  runsAs_of_map_eq rfl rfl fun _ => rfl

end

/-! ### Add and subtract (R166, R167) -/

/-- What a form that adds or subtracts does: A and the four flags from the ALU, PC and cycles, and nothing else. -/
theorem RunsAs.addSub_spec {f : Form} {mn : String} {alu : Config → Bool → Byte → Byte → Bool → AluResult}
    (h : RunsAs f mn (addSub alu)) (s : State) {r : AluResult}
    (hr : alu s.cfg s.p.d s.a (f.operand.value s) s.p.c = r) :
    exec f.instr s = .next { s with
      a := r.r
      p := { s.p with n := r.n, v := r.v, z := r.z, c := r.c }
      pc := f.nextPC s
      cycles := f.cyclesAfter s } := by
  subst hr
  rw [h.exec_eq, addSub_eq]
  rfl

theorem aluAdd_eq (cfg : Config) (decimal : Bool) (a m : Byte) (cin : Bool) :
    aluAdd cfg decimal a m cin = if decimal = false then addBin a m cin else adcDec cfg a m cin := by
  cases decimal <;> rfl

theorem aluSub_eq (cfg : Config) (decimal : Bool) (a m : Byte) (cin : Bool) :
    aluSub cfg decimal a m cin = if decimal = false then subBin a m cin else sbcDec cfg a m cin := by
  cases decimal <;> rfl

/-- Settles O38: every form in the list is the shared add, and the ALU's choice is R166's. -/
theorem adcAddsWithCarry : Obligations.AdcAddsWithCarry := by
  intro s b w f hf
  have hruns := adcForms_runAs b w f hf
  refine ⟨hruns.encoded, fun m r hm hr => hruns.addSub_spec s ?_⟩
  rw [hm, hr, aluAdd_eq, adcDec_eq]

/-- Settles O39: every form in the list is the shared subtract, and the ALU's choice is R167's. -/
theorem sbcSubtractsWithBorrow : Obligations.SbcSubtractsWithBorrow := by
  intro s b w f hf
  have hruns := sbcForms_runAs b w f hf
  refine ⟨hruns.encoded, fun m r hm hr => hruns.addSub_spec s ?_⟩
  rw [hm, hr, aluSub_eq, sbcDec_eq]

/-! ### Compares (R168 to R171) -/

/-- N of a compare is bit 7 of the difference taken mod 256. -/
theorem msb_sub (r m : Byte) : (r - m).msb = decide (128 ≤ (r.toNat + 256 - m.toNat) % 256) := by
  have hm := m.isLt
  rw [Bool.eq_iff_iff, msb_iff, decide_eq_true_eq, BitVec.toNat_sub']
  omega

theorem compare_eq (p : Status) (r m : Byte) : p.compare r m = { p with
    c := decide (m.toNat ≤ r.toNat)
    z := decide (r = m)
    n := decide (128 ≤ (r.toNat + 256 - m.toNat) % 256) } := by
  rw [Status.compare, msb_sub, beq_eq_decide]

/-- What a form that compares does: C, Z and N of its register and the operand value, PC and cycles, and nothing else. -/
theorem RunsAs.compareWith_spec {f : Form} {mn : String} {r : Reg} (h : RunsAs f mn (compareWith r)) (s : State) :
    f.encoded mn ∧ ∀ m, f.operand.value s = m → exec f.instr s = .next { s with
      p := { s.p with
        c := decide (m.toNat ≤ (s.reg r).toNat)
        z := decide (s.reg r = m)
        n := decide (128 ≤ ((s.reg r).toNat + 256 - m.toNat) % 256) }
      pc := f.nextPC s
      cycles := f.cyclesAfter s } := by
  refine ⟨h.encoded, ?_⟩
  rintro m rfl
  rw [h.exec_eq, compareWith_eq, compare_eq]
  rfl

/-- Settles O40: every form in the three lists is a compare with its register. -/
theorem comparesSetCarryZeroNegative : Obligations.ComparesSetCarryZeroNegative := fun s b w =>
  ⟨fun f hf => (cmpForms_runAs b w f hf).compareWith_spec s, fun f hf => (cpxForms_runAs b w f hf).compareWith_spec s,
    fun f hf => (cpyForms_runAs b w f hf).compareWith_spec s⟩

/-! ### Increment and decrement (R172 to R177) -/

theorem add_one_eq_ofNat (v : Byte) : v + 1 = BitVec.ofNat 8 (v.toNat + 1) := by
  rw [BitVec.ofNat_add, BitVec.ofNat_toNat, BitVec.setWidth_eq]
  rfl

theorem sub_one_eq_ofNat (v : Byte) : v - 1 = BitVec.ofNat 8 (v.toNat + 255) := by
  rw [BitVec.ofNat_add, BitVec.ofNat_toNat, BitVec.setWidth_eq, BitVec.sub_eq_add_neg]
  rfl

/-- What a form that steps a byte of memory does: the byte at the effective address, N and Z from it, PC and cycles, and
nothing else. -/
theorem RunsAs.stepMem_spec {f : Form} {mn : String} {g : Byte → Byte} {delta : Nat} (h : RunsAs f mn (stepMem g))
    (hg : ∀ v, g v = BitVec.ofNat 8 (v.toNat + delta)) (s : State) :
    f.encoded mn ∧ ∃ r t, r = BitVec.ofNat 8 ((f.operand.value s).toNat + delta) ∧ exec f.instr s = .next t ∧
      OnlyStored s t (f.operand.ea s) r ∧
      t = { s with
            mem := t.mem
            p := { s.p with n := r.getLsbD 7, z := decide (r = 0) }
            pc := f.nextPC s
            cycles := f.cyclesAfter s } := by
  refine ⟨h.encoded, g (f.operand.value s), _, hg _, (h.exec_eq s).trans (stepMem_eq ..),
    onlyStored_write s _ _, ?_⟩
  rw [nz_eq]
  rfl

/-- Settles O41: every form in the two lists steps one byte of memory. -/
theorem incDecStepMemory : Obligations.IncDecStepMemory := fun s b w =>
  ⟨fun f hf => (incMemoryForms_runAs b w f hf).stepMem_spec add_one_eq_ofNat s,
    fun f hf => (decMemoryForms_runAs b w f hf).stepMem_spec sub_one_eq_ofNat s⟩

/-- A step of a register does what a transfer of the stepped value does. -/
theorem stepReg_eq_setReg (r : Reg) (v : Byte) (op : Byte) (s : State) :
    stepReg r v op s = .next { s.setReg r v with
      p := { s.p with n := v.getLsbD 7, z := decide (v = 0) }
      pc := s.pc + 1
      cycles := s.cycles + baseCycles s.cfg op } :=
  transfer_eq_setReg v r op s

/-- Settles O42: each instruction is the shared step of its register. -/
theorem incDecStepRegisters : Obligations.IncDecStepRegisters := by
  intro s
  simp only [← add_one_eq_ofNat, ← sub_one_eq_ofNat]
  exact ⟨⟨encodedAs_of rfl rfl, stepReg_eq_setReg .a (s.a + 1) 0x1A s⟩,
    ⟨encodedAs_of rfl rfl, stepReg_eq_setReg .a (s.a - 1) 0x3A s⟩,
    ⟨encodedAs_of rfl rfl, stepReg_eq_setReg .x (s.x + 1) 0xE8 s⟩,
    ⟨encodedAs_of rfl rfl, stepReg_eq_setReg .y (s.y + 1) 0xC8 s⟩,
    ⟨encodedAs_of rfl rfl, stepReg_eq_setReg .x (s.x - 1) 0xCA s⟩,
    ⟨encodedAs_of rfl rfl, stepReg_eq_setReg .y (s.y - 1) 0x88 s⟩⟩

end Sys2Proof.Proofs
end

