-- ==== Sys2Proof/Proofs/Logic.lean ====
section
/-! PROOF. Logic, bit test, shifts and bit operations (43_logic_shift_bit.md R190 to R215; the optional BIT forms,
47_cmos_optional.md R287): the bits of each result, the shifts as arithmetic on naturals, and what each operation does
to the state. -/

namespace Sys2Proof.Proofs

open Sys2Proof.Machine

/-! ### The operand forms (R190 to R199, R287) -/

section
variable (b : Byte) (w : Addr)

theorem andForms_runAs : ∀ f ∈ andForms b w, RunsAs f "AND" (logic (· &&& ·)) :=
  runsAs_of_map_eq rfl rfl fun _ => rfl

theorem oraForms_runAs : ∀ f ∈ oraForms b w, RunsAs f "ORA" (logic (· ||| ·)) :=
  runsAs_of_map_eq rfl rfl fun _ => rfl

theorem eorForms_runAs : ∀ f ∈ eorForms b w, RunsAs f "EOR" (logic (· ^^^ ·)) :=
  runsAs_of_map_eq rfl rfl fun _ => rfl

theorem bitMemoryForms_runAs : ∀ f ∈ bitMemoryForms b w, RunsAs f "BIT" bitMemory :=
  runsAs_of_map_eq rfl rfl fun _ => rfl

theorem aslMemoryForms_runAs : ∀ f ∈ aslMemoryForms b w, RunsAs f "ASL" (shiftMem shiftAsl) :=
  runsAs_of_map_eq rfl rfl fun _ => rfl

theorem lsrMemoryForms_runAs : ∀ f ∈ lsrMemoryForms b w, RunsAs f "LSR" (shiftMem shiftLsr) :=
  runsAs_of_map_eq rfl rfl fun _ => rfl

theorem rolMemoryForms_runAs : ∀ f ∈ rolMemoryForms b w, RunsAs f "ROL" (shiftMem shiftRol) :=
  runsAs_of_map_eq rfl rfl fun _ => rfl

theorem rorMemoryForms_runAs : ∀ f ∈ rorMemoryForms b w, RunsAs f "ROR" (shiftMem shiftRor) :=
  runsAs_of_map_eq rfl rfl fun _ => rfl

theorem tsbForms_runAs : ∀ f ∈ tsbForms b w, RunsAs f "TSB" (testAndModify fun m a => m ||| a) :=
  runsAs_of_map_eq rfl rfl fun _ => rfl

theorem trbForms_runAs : ∀ f ∈ trbForms b w, RunsAs f "TRB" (testAndModify fun m a => m &&& (a ^^^ 0xFF)) :=
  runsAs_of_map_eq rfl rfl fun _ => rfl

end

/-! ### AND, ORA, EOR (R190 to R192) -/

/-- What a form of a bitwise operation does: A with each bit `g` of the two operands', N and Z from it, PC and cycles,
and nothing else. -/
theorem RunsAs.logic_spec {f : Form} {mn : String} {op : Byte → Byte → Byte} {g : Bool → Bool → Bool}
    (h : RunsAs f mn (logic op)) (hop : ∀ a m k, (op a m).getLsbD k = g (a.getLsbD k) (m.getLsbD k)) (s : State) :
    f.encoded mn ∧ ∃ r : Byte, (∀ k, k < 8 → r.getLsbD k = g (s.a.getLsbD k) ((f.operand.value s).getLsbD k)) ∧
      exec f.instr s = .next { s with
        a := r
        p := { s.p with n := r.getLsbD 7, z := decide (r = 0) }
        pc := f.nextPC s
        cycles := f.cyclesAfter s } := by
  refine ⟨h.encoded, op s.a (f.operand.value s), fun k _ => hop _ _ k, ?_⟩
  rw [h.exec_eq, logic_eq, nz_eq]
  rfl

/-- Settles O43: every form in the three lists is a bitwise operation, and each bit is that of its operands' bits. -/
theorem logicWorksBitwise : Obligations.LogicWorksBitwise := fun s b w =>
  ⟨fun f hf => (andForms_runAs b w f hf).logic_spec (fun _ _ _ => BitVec.getLsbD_and) s,
    fun f hf => (oraForms_runAs b w f hf).logic_spec (fun _ _ _ => BitVec.getLsbD_or) s,
    fun f hf => (eorForms_runAs b w f hf).logic_spec (fun _ _ _ => BitVec.getLsbD_xor) s⟩

/-! ### BIT (R193, R287) -/

/-- Z of a bit test: no bit is set in both bytes. -/
theorem and_beq_zero_eq_all (a m : Byte) :
    (a &&& m == 0) = (List.range 8).all fun k => !(a.getLsbD k && m.getLsbD k) := by
  rw [Bool.eq_iff_iff, beq_iff_eq, BitVec.eq_of_getLsbD_eq_iff, List.all_eq_true]
  simp only [List.mem_range, BitVec.getLsbD_and, BitVec.ofNat_eq_ofNat, BitVec.getLsbD_zero, Bool.not_eq_true']

/-- What a memory form of BIT does: N and V from the operand value, Z from the test, PC and cycles, and nothing else. -/
theorem RunsAs.bitMemory_spec {f : Form} {mn : String} (h : RunsAs f mn bitMemory) (s : State) :
    f.encoded mn ∧ ∀ m, f.operand.value s = m → exec f.instr s = .next { s with
      p := { s.p with
        n := m.getLsbD 7
        v := m.getLsbD 6
        z := (List.range 8).all fun k => !(s.a.getLsbD k && m.getLsbD k) }
      pc := f.nextPC s
      cycles := f.cyclesAfter s } := by
  refine ⟨h.encoded, ?_⟩
  rintro m rfl
  rw [h.exec_eq, bitMemory_eq, Status.bitTest, and_beq_zero_eq_all]
  rfl

/-- Settles O44: the four memory forms are one operation, and the immediate form is the test alone. -/
theorem bitTestsMemory : Obligations.BitTestsMemory := by
  intro s b w
  refine ⟨fun f hf => (bitMemoryForms_runAs b w f hf).bitMemory_spec s, encodedAs_of rfl rfl, ?_⟩
  rw [← and_beq_zero_eq_all]
  exact bitImmediate_eq 0x89 s b

/-! ### Shifts and rotates as arithmetic on naturals (R194 to R197) -/

theorem bit7_eq_decide (v : Byte) : v.getLsbD 7 = decide (128 ≤ v.toNat) := by
  rw [← msb_eq_bit7, BitVec.msb_eq_decide]

theorem bit0_eq_decide (v : Byte) : v.getLsbD 0 = decide (v.toNat % 2 = 1) :=
  Nat.testBit_zero v.toNat

theorem shiftLeft_one_eq_ofNat (v : Byte) : v <<< 1 = BitVec.ofNat 8 (v.toNat * 2) :=
  congrArg (BitVec.ofNat 8) (Nat.shiftLeft_eq v.toNat 1)

theorem shiftRight_one_eq_ofNat (v : Byte) : v >>> 1 = BitVec.ofNat 8 (v.toNat / 2) := by
  apply BitVec.eq_of_toNat_eq
  have hv := v.isLt
  rw [BitVec.toNat_ushiftRight, Nat.shiftRight_eq_div_pow, BitVec.toNat_ofNat]
  omega

/-- A flag put at a bit that is clear is added to the byte. -/
theorem or_flagBit_eq_add {v : Byte} {n : Nat} (hn : v.getLsbD n = false) (c : Bool) :
    v ||| flagBit c (bitMask n) = v + flagBit c (bitMask n) := by
  refine (BitVec.add_eq_or_of_and_eq_zero _ _ ?_).symm
  cases c with
  | false => exact BitVec.and_zero
  | true =>
    have hand := BitVec.and_twoPow v n
    rwa [hn] at hand

theorem shiftAsl_eq (v : Byte) (c : Bool) :
    shiftAsl v c = { r := BitVec.ofNat 8 (v.toNat * 2), carry := decide (128 ≤ v.toNat) } := by
  rw [shiftAsl, shiftLeft_one_eq_ofNat, bit7_eq_decide]

theorem shiftLsr_eq (v : Byte) (c : Bool) :
    shiftLsr v c = { r := BitVec.ofNat 8 (v.toNat / 2), carry := decide (v.toNat % 2 = 1) } := by
  rw [shiftLsr, shiftRight_one_eq_ofNat, bit0_eq_decide]

/-- The bit the carry enters is clear after the shift. -/
theorem shiftRol_eq (v : Byte) (c : Bool) :
    shiftRol v c = { r := BitVec.ofNat 8 (v.toNat * 2 + c.toNat), carry := decide (128 ≤ v.toNat) } := by
  have hclear : (v <<< 1).getLsbD 0 = false := by simp
  have hflag : flagBit c (bitMask 0) = BitVec.ofNat 8 c.toNat := by cases c <;> rfl
  have hr : v <<< 1 ||| flagBit c 0x01 = BitVec.ofNat 8 (v.toNat * 2 + c.toNat) := by
    rw [BitVec.ofNat_add, ← shiftLeft_one_eq_ofNat, ← hflag]
    exact or_flagBit_eq_add hclear c
  rw [shiftRol, hr, bit7_eq_decide]

@[inherit_doc shiftRol_eq]
theorem shiftRor_eq (v : Byte) (c : Bool) :
    shiftRor v c = { r := BitVec.ofNat 8 (v.toNat / 2 + 128 * c.toNat), carry := decide (v.toNat % 2 = 1) } := by
  have hclear : (v >>> 1).getLsbD 7 = false := by simp
  have hflag : flagBit c (bitMask 7) = BitVec.ofNat 8 (128 * c.toNat) := by cases c <;> rfl
  have hr : v >>> 1 ||| flagBit c 0x80 = BitVec.ofNat 8 (v.toNat / 2 + 128 * c.toNat) := by
    rw [BitVec.ofNat_add, ← shiftRight_one_eq_ofNat, ← hflag]
    exact or_flagBit_eq_add hclear c
  rw [shiftRor, hr, bit0_eq_decide]

/-- N and Z of a shift whose result is the natural `r` mod 256. -/
theorem shifted_ofNat_eq (p : Status) (r : Nat) (carry : Bool) :
    p.shifted { r := BitVec.ofNat 8 r, carry := carry } =
      { p with n := decide (128 ≤ r % 256), z := decide (r % 256 = 0), c := carry } := by
  have hn : (BitVec.ofNat 8 r).msb = decide (128 ≤ r % 256) := by rw [BitVec.msb_eq_decide, BitVec.toNat_ofNat]
  have hz : (BitVec.ofNat 8 r == 0) = decide (r % 256 = 0) := by
    rw [Bool.eq_iff_iff, beq_zero_iff, BitVec.toNat_ofNat, decide_eq_true_eq]
  rw [Status.shifted, hn, hz]

/-- A shift of A, once it is known as a natural: A, N, Z, C, PC and cycles, and nothing else. -/
theorem shiftAcc_eq_of_eq_ofNat {g : Byte → Bool → Shifted} {s : State} {r : Nat} {carry : Bool}
    (hg : g s.a s.p.c = { r := BitVec.ofNat 8 r, carry := carry }) (op : Byte) :
    shiftAcc g op s = .next { s with
      a := BitVec.ofNat 8 r
      p := { s.p with n := decide (128 ≤ r % 256), z := decide (r % 256 = 0), c := carry }
      pc := s.pc + 1
      cycles := s.cycles + baseCycles s.cfg op } := by
  rw [shiftAcc_eq, hg, shifted_ofNat_eq]

/-- Settles O45: each instruction is the shared shift of A by its function. -/
theorem shiftsMoveAccumulator : Obligations.ShiftsMoveAccumulator := fun s =>
  ⟨⟨encodedAs_of rfl rfl, shiftAcc_eq_of_eq_ofNat (shiftAsl_eq s.a s.p.c) 0x0A⟩,
    ⟨encodedAs_of rfl rfl, shiftAcc_eq_of_eq_ofNat (shiftLsr_eq s.a s.p.c) 0x4A⟩,
    ⟨encodedAs_of rfl rfl, shiftAcc_eq_of_eq_ofNat (shiftRol_eq s.a s.p.c) 0x2A⟩,
    ⟨encodedAs_of rfl rfl, shiftAcc_eq_of_eq_ofNat (shiftRor_eq s.a s.p.c) 0x6A⟩⟩

/-- What a form that shifts a byte of memory does, once the shift is known as a natural: the byte at the effective
address, N, Z, C, PC and cycles, and nothing else. -/
theorem RunsAs.shiftMem_spec {f : Form} {mn : String} {g : Byte → Bool → Shifted} (h : RunsAs f mn (shiftMem g))
    {s : State} {r : Nat} {carry : Bool}
    (hg : g (f.operand.value s) s.p.c = { r := BitVec.ofNat 8 r, carry := carry }) :
    f.encoded mn ∧ ∃ t, exec f.instr s = .next t ∧ OnlyStored s t (f.operand.ea s) (BitVec.ofNat 8 r) ∧
      t = { s with
            mem := t.mem
            p := { s.p with n := decide (128 ≤ r % 256), z := decide (r % 256 = 0), c := carry }
            pc := f.nextPC s
            cycles := f.cyclesAfter s } := by
  have hexec := (h.exec_eq s).trans (shiftMem_eq ..)
  rw [hg, shifted_ofNat_eq] at hexec
  exact ⟨h.encoded, _, hexec, onlyStored_write s _ _, rfl⟩

/-- Settles O46: every form in the four lists shifts one byte of memory by its function. -/
theorem shiftsMoveMemory : Obligations.ShiftsMoveMemory := by
  intro s b w
  refine ⟨?_, ?_, ?_, ?_⟩ <;> rintro f hf v rfl
  · exact (aslMemoryForms_runAs b w f hf).shiftMem_spec (shiftAsl_eq _ _)
  · exact (lsrMemoryForms_runAs b w f hf).shiftMem_spec (shiftLsr_eq _ _)
  · exact (rolMemoryForms_runAs b w f hf).shiftMem_spec (shiftRol_eq _ _)
  · exact (rorMemoryForms_runAs b w f hf).shiftMem_spec (shiftRor_eq _ _)

/-! ### TSB and TRB (R198, R199) -/

/-- The bits of the complement `a XOR 0xFF`. -/
theorem getLsbD_complement (a : Byte) {k : Nat} (hk : k < 8) : (a ^^^ 0xFF).getLsbD k = !a.getLsbD k := by
  have hnot : (~~~a).getLsbD k = !a.getLsbD k := by rw [BitVec.getLsbD_not, decide_eq_true hk, Bool.true_and]
  rwa [← BitVec.xor_allOnes] at hnot

theorem getLsbD_and_complement (v a : Byte) {k : Nat} (hk : k < 8) :
    (v &&& (a ^^^ 0xFF)).getLsbD k = (v.getLsbD k && !a.getLsbD k) := by
  rw [BitVec.getLsbD_and, getLsbD_complement a hk]

/-- What a form that tests and modifies does: the byte at the effective address with each bit `g` of its old one and
A's, Z from the byte before, PC and cycles, and nothing else. -/
theorem RunsAs.testAndModify_spec {f : Form} {mn : String} {op : Byte → Byte → Byte} {g : Bool → Bool → Bool}
    (h : RunsAs f mn (testAndModify op))
    (hop : ∀ m a k, k < 8 → (op m a).getLsbD k = g (m.getLsbD k) (a.getLsbD k)) (s : State) :
    f.encoded mn ∧ ∃ t r, exec f.instr s = .next t ∧ OnlyStored s t (f.operand.ea s) r ∧
      (∀ k, k < 8 → r.getLsbD k = g ((f.operand.value s).getLsbD k) (s.a.getLsbD k)) ∧
      t = { s with
            mem := t.mem
            p := { s.p with z := decide (s.a &&& f.operand.value s = 0) }
            pc := f.nextPC s
            cycles := f.cyclesAfter s } := by
  refine ⟨h.encoded, _, _, (h.exec_eq s).trans (testAndModify_eq ..), onlyStored_write s _ _, hop _ _, ?_⟩
  rw [Status.testZ, beq_eq_decide]
  rfl

/-- Settles O47: every form in the two lists modifies one byte of memory, and each bit is that of the bits of the byte
and A. -/
theorem testAndSetResetBits : Obligations.TestAndSetResetBits := fun s b w =>
  ⟨fun f hf => (tsbForms_runAs b w f hf).testAndModify_spec (fun _ _ _ _ => BitVec.getLsbD_or) s,
    fun f hf => (trbForms_runAs b w f hf).testAndModify_spec (g := fun m a => m && !a)
      (fun m a _ => getLsbD_and_complement m a) s⟩

/-! ### RMBn and SMBn (R200 to R215) -/

/-- The row of an instruction on one bit is a row of the opcode table, and executing it is the operation `run` on the
row's bit and opcode byte. -/
structure BitRowRunsAs (row : BitRow) (m : Mode) (av : Availability) (run : Nat → Byte → State → Result) : Prop where
  encoded : EncodedAs row.mnemonic row.op m av row.instr
  exec_eq : ∀ s, exec row.instr s = run row.bit row.op s

/-- The counterpart of `runsAs_of_map_eq` for a list of bit rows. -/
theorem bitRowsRunAs_of_map_eq {rows : List BitRow} {m : Mode} {av : Availability} {run : Nat → Byte → State → Result}
    (hop : rows.map (fun row => row.instr.opcode) = rows.map (fun row => row.op))
    (hrow : rows.map (fun ⟨_, _, op, _⟩ => (tableEntry op).map fun d => (d.mnemonic, d.mode, d.avail)) =
      rows.map fun row => some (row.mnemonic, m, av))
    (hexec : ∀ s, rows.map (fun row => exec row.instr s) = rows.map fun row => run row.bit row.op s) :
    ∀ row ∈ rows, BitRowRunsAs row m av run :=
  fun row h => ⟨encodedAs_of (List.map_inj_left.mp hop row h) (List.map_inj_left.mp hrow row h),
    fun s => List.map_inj_left.mp (hexec s) row h⟩

theorem rmbRows_runAs (z : Byte) : ∀ row ∈ rmbRows z,
    BitRowRunsAs row .zpg .cmos fun n op => modifyBit (· &&& (bitMask n ^^^ 0xFF)) op z :=
  bitRowsRunAs_of_map_eq rfl rfl fun _ => rfl

theorem smbRows_runAs (z : Byte) : ∀ row ∈ smbRows z,
    BitRowRunsAs row .zpg .cmos fun n op => modifyBit (· ||| bitMask n) op z :=
  bitRowsRunAs_of_map_eq rfl rfl fun _ => rfl

/-- Inside the byte, the mask of bit `n` has that bit alone. -/
theorem getLsbD_bitMask (n : Nat) {k : Nat} (hk : k < 8) : (bitMask n).getLsbD k = decide (k = n) := by
  refine (BitVec.getLsbD_twoPow n k).trans ?_
  rw [Bool.eq_iff_iff, Bool.and_eq_true]
  simp only [decide_eq_true_eq]
  omega

theorem getLsbD_clearBit (v : Byte) (n : Nat) {k : Nat} (hk : k < 8) :
    (v &&& (bitMask n ^^^ 0xFF)).getLsbD k = if k = n then false else v.getLsbD k := by
  rw [getLsbD_and_complement _ _ hk, getLsbD_bitMask n hk]
  split_ifs with h <;> simp [h]

theorem getLsbD_setBit (v : Byte) (n : Nat) {k : Nat} (hk : k < 8) :
    (v ||| bitMask n).getLsbD k = if k = n then true else v.getLsbD k := by
  rw [BitVec.getLsbD_or, getLsbD_bitMask n hk]
  split_ifs with h <;> simp [h]

/-- What an instruction that puts `value` at its bit does: the zero-page byte, PC and cycles, and nothing else. -/
theorem BitRowRunsAs.modifyBit_spec {row : BitRow} {m : Mode} {av : Availability} {g : Nat → Byte → Byte} {z : Byte}
    {value : Bool} (h : BitRowRunsAs row m av fun n op => modifyBit (g n) op z)
    (hg : ∀ v n k, k < 8 → (g n v).getLsbD k = if k = n then value else v.getLsbD k) (s : State) :
    EncodedAs row.mnemonic row.op m av row.instr ∧
    ∃ t r, exec row.instr s = .next t ∧ OnlyStored s t (zeroPage z) r ∧
      (∀ k, k < 8 → r.getLsbD k = if k = row.bit then value else (s.read (zeroPage z)).getLsbD k) ∧
      t = { s with mem := t.mem, pc := s.pc + 2, cycles := s.cycles + baseCycles s.cfg row.op } :=
  ⟨h.encoded, _, _, (h.exec_eq s).trans (modifyBit_eq ..), onlyStored_write s _ _, hg _ _, rfl⟩

/-- Settles O48: every row in the two lists modifies one zero-page byte, at its bit alone. -/
theorem resetAndSetMemoryBits : Obligations.ResetAndSetMemoryBits := fun s z =>
  ⟨fun row h => (rmbRows_runAs z row h).modifyBit_spec (fun v n _ => getLsbD_clearBit v n) s,
    fun row h => (smbRows_runAs z row h).modifyBit_spec (fun v n _ => getLsbD_setBit v n) s⟩

end Sys2Proof.Proofs
end

