-- ==== Sys2Proof/Proofs/ControlTransfer.lean ====
section
/-! PROOF. Branches, jumps, subroutine call and return (44_control_transfer.md R220 to R232): the base counts of the
reference table, a branch's target and page as arithmetic on naturals and integers, the pointers of JMP, and the word
that JSR leaves for RTS. -/

namespace Sys2Proof.Proofs

open Sys2Proof.Machine

/-! ### Base counts of the reference table (R351) -/

/-- The base count from the row of a concrete opcode byte: `n` on NMOS, `m` on CMOS. -/
theorem baseCycles_of_row {cfg : Config} {op : Byte} {n m : Nat} (hcfg : cfg.cycleTable = .reference)
    (hrow : (tableEntry op).map (fun d => (d.nmosCycles, d.cmosCycles)) = some (n, m)) :
    baseCycles cfg op = if cfg.variant = .nmos then n else m := by
  obtain ⟨d, hd, heq⟩ := Option.map_eq_some_iff.mp hrow
  cases heq
  cases hv : cfg.variant <;> simp [baseCycles, hcfg, hd, hv]

/-- A row that has one base count on both variants. -/
theorem baseCycles_of_same_row {cfg : Config} {op : Byte} {n : Nat} (hcfg : cfg.cycleTable = .reference)
    (hrow : (tableEntry op).map (fun d => (d.nmosCycles, d.cmosCycles)) = some (n, n)) : baseCycles cfg op = n :=
  (baseCycles_of_row hcfg hrow).trans (ite_self n)

/-! ### Branches (R220 to R229) -/

/-- Every `rel` row has the base count 2 on the variants that define it: BRA, the one CMOS row, has none on NMOS. -/
theorem rel_cycles_of_row : ∀ row ∈ opcodeRows, ∀ d ∈ row, d.mode = .rel →
    d.cmosCycles = 2 ∧ (d.avail = .both → d.nmosCycles = 2) := by decide

theorem baseCycles_rel {cfg : Config} {mn : String} {op : Byte} {av : Availability} {i : Instr}
    (hcfg : cfg.cycleTable = .reference) (hdef : av.definedIn cfg = true) (henc : EncodedAs mn op .rel av i) :
    baseCycles cfg op = 2 := by
  obtain ⟨-, d, hd, -, hmode, rfl⟩ := henc
  obtain ⟨row, hrow, hcell⟩ := exists_row_of_tableEntry hd
  obtain ⟨hcmos, hnmos⟩ :=
    rel_cycles_of_row row (List.mem_of_getElem? hrow) d (List.mem_of_getElem? hcell) hmode
  rw [baseCycles_of_row hcfg (congrArg _ hd)]
  split_ifs with hv
  · exact hnmos ((definedIn_nmos hv).mp hdef)
  · exact hcmos

/-- The target is the offset, as an integer, from the next instruction, mod 65,536 (R120, R124). -/
theorem branchTarget_add_ofNat (pc : Addr) (len : Nat) (off : Byte) :
    branchTarget (pc + BitVec.ofNat 16 len) off = BitVec.ofInt 16 (pc.toNat + len + off.toInt) := by
  rw [BitVec.ofInt_add, BitVec.ofInt_add, BitVec.ofInt_natCast, BitVec.ofInt_natCast, BitVec.ofNat_toNat,
    BitVec.setWidth_eq]
  rfl

/-- The extra cycle across a page, with the pages as quotients by 256 (R220). -/
theorem pageDiffers_cycles (target next : Addr) :
    (if pageDiffers target next then 2 else 1) = if target.toNat / 256 = next.toNat / 256 then 1 else 2 := by
  simp [pageDiffers_eq, ite_not]

theorem branchIf_eq_of_target {s : State} {off : Byte} {target : Addr}
    (htarget : target = BitVec.ofInt 16 (s.pc.toNat + 2 + off.toInt)) (cond : Bool) (op : Byte) :
    branchIf cond op off s = .next { s with
      pc := if cond = true then target else s.pc + 2
      cycles := s.cycles + baseCycles s.cfg op +
        (if cond = true then (if target.toNat / 256 = (s.pc + 2).toNat / 256 then 1 else 2) else 0) } := by
  have hbranch : branchTarget (s.pc + 2) off = target := (branchTarget_add_ofNat s.pc 2 off).trans htarget.symm
  rw [branchIf_eq, hbranch, pageDiffers_cycles]

/-- Settles O49: each of the nine is a `rel` row and the shared branch on its condition. -/
theorem branchesGoToTarget : Obligations.BranchesGoToTarget := by
  rintro s off ⟨mn, op, av, i, cond⟩ hrow
  have hbranch : EncodedAs mn op .rel av i ∧ exec i s = branchIf cond op off s := by
    fin_cases hrow <;> exact ⟨encodedAs_of rfl rfl, rfl⟩
  obtain ⟨hencoded, hexec⟩ := hbranch
  exact ⟨hencoded, fun hcfg hdef => baseCycles_rel hcfg hdef hencoded,
    fun target htarget => hexec.trans (branchIf_eq_of_target htarget cond op)⟩

/-! ### Jumps (R230, R118, R123) -/

theorem read16_eq (s : State) (a : Addr) :
    s.read16 a = word (s.mem.read ((a.toNat + 1) % 65536)) (s.mem.read a.toNat) := by
  rw [State.read16, State.read, State.read, addr_add_one_toNat]

/-- On NMOS the pointer's high byte is read from the same page (R118). -/
theorem indirectTarget_nmos {s : State} (hv : s.cfg.variant = .nmos) (w : Addr) :
    indirectTarget s w =
      word (s.mem.read (w.toNat / 256 * 256 + (w.toNat + 1) % 256)) (s.mem.read w.toNat) := by
  simp only [indirectTarget, hv, State.read16Page, State.read, nextInPage_toNat]

/-- On CMOS it is read from the next address (R118). -/
theorem indirectTarget_cmos {s : State} (hv : s.cfg.variant = .cmos) (w : Addr) :
    indirectTarget s w = word (s.mem.read ((w.toNat + 1) % 65536)) (s.mem.read w.toNat) := by
  simp only [indirectTarget, hv, read16_eq]

theorem indexedIndirectTarget_eq (s : State) (w : Addr) :
    indexedIndirectTarget s w = word (s.mem.read ((w.toNat + s.x.toNat + 1) % 65536))
      (s.mem.read ((w.toNat + s.x.toNat) % 65536)) := by
  rw [indexedIndirectTarget, read16_eq, addr_add_byte_toNat, Nat.mod_add_mod]

/-- JMP to a target that is known as a word: PC and cycles, and nothing else. -/
theorem jump_eq_of_target {s : State} {target pc : Addr} (htarget : target = pc) (op : Byte) :
    jump target op s = .next { s with pc := pc, cycles := s.cycles + baseCycles s.cfg op } := by
  rw [jump_eq, htarget]

/-- Settles O51: each form is the shared jump, to its operand or to the word its pointer gives. -/
theorem jumpsSetPC : Obligations.JumpsSetPC := by
  intro s w
  refine ⟨encodedAs_of rfl rfl, jump_eq .., fun hv => ⟨fun hcfg => ?_, encodedAs_of rfl rfl, ?_⟩,
    fun hv => ⟨fun hcfg => ?_, encodedAs_of rfl rfl, ?_⟩, encodedAs_of rfl rfl, ?_⟩
  · exact (baseCycles_of_row hcfg rfl).trans (if_pos hv)
  · exact jump_eq_of_target (indirectTarget_nmos hv w) _
  · exact (baseCycles_of_row hcfg rfl).trans (if_neg (by simp [hv]))
  · exact jump_eq_of_target (indirectTarget_cmos hv w) _
  · exact jump_eq_of_target (indexedIndirectTarget_eq s w) _

/-! ### Subroutine call and return (R231, R232) -/

theorem sub_two_eq (sp : Byte) : sp - 2 = sp - 1 - 1 := by bv_omega

theorem add_two_eq (sp : Byte) : sp + 2 = sp + 1 + 1 := by bv_omega

theorem popWord_eq (s : State) :
    s.popWord = word (s.read (stackCell (s.sp + 2))) (s.read (stackCell (s.sp + 1))) := by
  rw [add_two_eq]
  rfl

@[simp] theorem popWord_setPC (s : State) (pc : Addr) : (s.setPC pc).popWord = s.popWord := rfl

/-- JSR pushes the address of its last byte. -/
theorem exec_jsr_eq_pushWord (w : Addr) (s : State) :
    exec (.jsr w) s = .next (((s.advance 0x20 3).pushWord (s.pc + 2)).setPC w) := by
  have hlast : (s.advance 0x20 3).pc - 1 = s.pc + 2 := by
    rw [State.advance_pc]
    bv_omega
  rw [← hlast]
  rfl

/-- RTS, as one record over the state it starts from. -/
theorem exec_rts_eq (s : State) : exec .rts s = .next { s with
    pc := s.popWord + 1
    sp := s.sp + 2
    cycles := s.cycles + baseCycles s.cfg 0x60 } := by
  rw [add_two_eq]
  rfl

/-- Settles O52: the two bytes are those of a pushed word, and nothing is written after them. -/
theorem jsrPushesReturnAddress : Obligations.JsrPushesReturnAddress := by
  intro s w
  obtain ⟨hhi, hlo, hframe⟩ := (s.advance 0x20 3).read_pushWord (s.pc + 2)
  refine ⟨encodedAs_of rfl rfl, fun hcfg => baseCycles_of_same_row hcfg rfl, _, exec_jsr_eq_pushWord w s, hhi, hlo,
    hframe, ?_⟩
  rw [sub_two_eq]
  rfl

/-- RTS after JSR pops the word that JSR pushed, one short of the next instruction. -/
theorem rts_after_jsr (w : Addr) (s : State) :
    ∃ t u, exec (.jsr w) s = .next t ∧ exec .rts t = .next u ∧ u.pc = s.pc + 3 ∧ u.sp = s.sp := by
  refine ⟨_, _, exec_jsr_eq_pushWord w s, exec_rts_eq _, ?_, ?_⟩
  · rw [popWord_setPC, popWord_pushWord]
    bv_omega
  · rw [State.setPC_sp, State.pushWord_sp, State.advance_sp]
    bv_omega

/-- Settles O53: the popped word is the two bytes above SP, and after JSR it is the word that JSR pushed. -/
theorem rtsReturnsPastTheCall : Obligations.RtsReturnsPastTheCall := by
  intro s w
  refine ⟨encodedAs_of rfl rfl, fun hcfg => baseCycles_of_same_row hcfg rfl, ?_, rts_after_jsr w s⟩
  rw [exec_rts_eq, popWord_eq]

end Sys2Proof.Proofs
end

