-- ==== Sys2Proof/Proofs/StackFlags.lean ====
section
/-! PROOF. Stack transfers, flag instructions and the NOPs (45_stack_flags_misc.md R240 to R255; the optional NOPs,
47_cmos_optional.md R289). Each instruction is one shared operation on its opcode byte, so what it changes and leaves
unchanged is said of the operation. -/

namespace Sys2Proof.Proofs

open Sys2Proof.Machine

/-! ### Pushes (R240 to R243) -/

/-- What a push does: one byte at the cell of SP, SP, PC and cycles, and nothing else. -/
theorem pushByte_spec (v : Byte) (op : Byte) (s : State) :
    ∃ t, pushByte v op s = .next t ∧ OnlyStored s t (stackCell s.sp) v ∧
      t = { s with mem := t.mem, sp := s.sp - 1, pc := s.pc + 1, cycles := s.cycles + baseCycles s.cfg op } :=
  ⟨_, pushByte_eq op s v, onlyStored_write s _ v, rfl⟩

/-- Settles O54: each of the four is the shared push, of a register or of the status with B and U set. -/
theorem pushesStoreOneByte : Obligations.PushesStoreOneByte := fun s =>
  ⟨⟨encodedAs_of rfl rfl, pushByte_spec s.a 0x48 s⟩,
    ⟨encodedAs_of rfl rfl, pushByte_spec s.p.pushed 0x08 s⟩,
    ⟨encodedAs_of rfl rfl, pushByte_spec s.x 0xDA s⟩,
    ⟨encodedAs_of rfl rfl, pushByte_spec s.y 0x5A s⟩⟩

/-! ### Pulls (R244 to R247) -/

section
variable {s : State} {v : Byte} (hread : s.read (stackCell (s.sp + 1)) = v)
include hread

/-- A pull of any register, as one record over the state it starts from: the register, N and Z from the byte above SP,
SP, PC and cycles (R244, R246, R247). -/
theorem pullReg_eq_setReg (r : Reg) (op : Byte) : pullReg r op s = .next { s.setReg r v with
    p := { s.p with n := v.getLsbD 7, z := decide (v = 0) }
    sp := s.sp + 1
    pc := s.pc + 1
    cycles := s.cycles + baseCycles s.cfg op } := by
  rw [pullReg_eq, hread, State.setNZ, State.setReg_p, nz_eq]
  cases r <;> rfl

/-- PLP, as one record over the state it starts from (R245). -/
theorem exec_plp_eq : exec .plp s = .next { s with
    p := .pulled v
    sp := s.sp + 1
    pc := s.pc + 1
    cycles := s.cycles + baseCycles s.cfg 0x28 } := by
  subst hread
  rfl

end

/-- Settles O55: three of the four are the shared pull of a register, and PLP restores P by its bits. -/
theorem pullsReadOneByte : Obligations.PullsReadOneByte := fun _ v hread =>
  ⟨⟨encodedAs_of rfl rfl, pullReg_eq_setReg hread .a 0x68⟩,
    ⟨encodedAs_of rfl rfl, pullReg_eq_setReg hread .x 0xFA⟩,
    ⟨encodedAs_of rfl rfl, pullReg_eq_setReg hread .y 0x7A⟩,
    ⟨encodedAs_of rfl rfl, Status.pulled_eq v ▸ exec_plp_eq hread⟩⟩

/-! ### Flag instructions (R248 to R254) -/

/-- Settles O56: each of the seven is the shared write of P, with one flag of the old P replaced. -/
theorem flagInstructionsWriteOneFlag : Obligations.FlagInstructionsWriteOneFlag := fun s =>
  ⟨⟨encodedAs_of rfl rfl, withStatus_eq 0x18 s { s.p with c := false }⟩,
    ⟨encodedAs_of rfl rfl, withStatus_eq 0x38 s { s.p with c := true }⟩,
    ⟨encodedAs_of rfl rfl, withStatus_eq 0x58 s { s.p with i := false }⟩,
    ⟨encodedAs_of rfl rfl, withStatus_eq 0x78 s { s.p with i := true }⟩,
    ⟨encodedAs_of rfl rfl, withStatus_eq 0xD8 s { s.p with d := false }⟩,
    ⟨encodedAs_of rfl rfl, withStatus_eq 0xF8 s { s.p with d := true }⟩,
    ⟨encodedAs_of rfl rfl, withStatus_eq 0xB8 s { s.p with v := false }⟩⟩

/-! ### NOPs (R255, R289) -/

/-- A row of R289's table agrees with its row of the opcode table, cycles included, and its instruction is the shared
NOP of the row's length. -/
structure NopRowRuns (row : NopRow) : Prop where
  opcode_eq : row.instr.opcode = row.op
  encoded : (tableEntry row.op).map (fun d => (d.mnemonic, d.mode, d.avail)) = some ("NOP", row.mode, .wdc)
  cycles : (tableEntry row.op).map (fun d => (d.nmosCycles, d.cmosCycles)) = some (row.cycles, row.cycles)
  exec_eq : ∀ s, exec row.instr s = noOperation row.op row.len s

/-- The four agreements hold place by place along the list. The two about the opcode table take a row apart by a pattern
because the table's lookup reduces on an opcode byte, not on a projection. -/
theorem optionalNops_run (b : Byte) (w : Addr) : ∀ row ∈ optionalNops b w, NopRowRuns row := by
  have hop : (optionalNops b w).map (fun row => row.instr.opcode) = (optionalNops b w).map fun row => row.op := rfl
  have hrow : (optionalNops b w).map
        (fun ⟨op, _, _, _, _⟩ => (tableEntry op).map fun d => (d.mnemonic, d.mode, d.avail)) =
      (optionalNops b w).map fun row => some ("NOP", row.mode, .wdc) := rfl
  have hcycles : (optionalNops b w).map
        (fun ⟨op, _, _, _, _⟩ => (tableEntry op).map fun d => (d.nmosCycles, d.cmosCycles)) =
      (optionalNops b w).map fun row => some (row.cycles, row.cycles) := rfl
  have hexec (s : State) : (optionalNops b w).map (fun row => exec row.instr s) =
      (optionalNops b w).map fun row => noOperation row.op row.len s := rfl
  exact fun row h => ⟨List.map_inj_left.mp hop row h, List.map_inj_left.mp hrow row h,
    List.map_inj_left.mp hcycles row h, fun s => List.map_inj_left.mp (hexec s) row h⟩

/-- Settles O57: NOP and the optional NOPs are the shared NOP of their length. -/
theorem nopsOnlyAdvance : Obligations.NopsOnlyAdvance := by
  intro s b w
  refine ⟨⟨encodedAs_of rfl rfl, fun hcfg => baseCycles_of_same_row hcfg rfl, noOperation_eq 0xEA s 1⟩,
    fun row hrow => ?_⟩
  obtain ⟨hop, hencoded, hcycles, hexec⟩ := optionalNops_run b w row hrow
  exact ⟨encodedAs_of hop hencoded, fun hcfg _ => baseCycles_of_same_row hcfg hcycles,
    (hexec s).trans (noOperation_eq row.op s row.len)⟩

end Sys2Proof.Proofs
end

