-- ==== Sys2Proof/Proofs/System.lean ====
section
/-! PROOF. BRK, RTI, WAI (46_system.md R260 to R262) and the optional STP (47_cmos_optional.md R288). BRK is taking an
exception from the state two past it, RTI is returning from one, and a stopped core is stuck whatever is requested. -/

namespace Sys2Proof.Proofs

open Sys2Proof.Machine

/-! ### Taking an exception: BRK (R260) -/

theorem sub_three_eq (sp : Byte) : sp - 3 = sp - 1 - 1 - 1 := by bv_omega

/-- D after an exception: cleared on CMOS, kept on NMOS. -/
theorem and_variant_beq_nmos (d : Bool) (v : Variant) : (d && v == .nmos) = if v = .cmos then false else d := by
  cases v with
  | nmos => exact Bool.and_true d
  | cmos => exact Bool.and_false d

/-- An exception as one record over the state it is taken from, with memory left to `State.read_takeException`. -/
theorem takeException_eq_of_eq {s t : State} {vector : Addr} {q : Byte} {b : Bool}
    (ht : s.takeException vector q b = t) : t = { s with
      mem := t.mem
      sp := s.sp - 3
      p := { s.p with i := true, b := b, d := if s.cfg.variant = .cmos then false else s.p.d }
      pc := t.read16 vector } := by
  subst ht
  rw [sub_three_eq, ← and_variant_beq_nmos]
  exact s.takeException_eq vector q b

/-- BRK takes an exception from the state two past it, its own byte and the padding byte. -/
theorem exec_brk_eq_takeException (s : State) :
    exec .brk s = .next ((s.advance 0x00 2).takeException irqVector s.p.pushed true) := by
  have hpc : (s.advance 0x00 1).setPC ((s.advance 0x00 1).pc + 1) = s.advance 0x00 2 := by
    rw [State.advance_pc, BitVec.add_assoc]
    rfl
  rw [← hpc]
  rfl

/-- Settles O58: the bytes pushed and the rest of the state are those of an exception through the IRQ vector. -/
theorem brkEntersIrqVector : Obligations.BrkEntersIrqVector := by
  intro s
  obtain ⟨hhi, hlo, hp, hframe⟩ := (s.advance 0x00 2).read_takeException irqVector s.p.pushed true
  exact ⟨encodedAs_of rfl rfl, fun hcfg => baseCycles_of_same_row hcfg rfl, _, exec_brk_eq_takeException s,
    hhi, hlo, hp, hframe, takeException_eq_of_eq rfl⟩

/-! ### Returning from an exception: RTI (R261) -/

theorem add_three_eq (sp : Byte) : sp + 3 = sp + 1 + 1 + 1 := by bv_omega

/-- RTI, as one record over the state it starts from. -/
theorem exec_rti_eq (s : State) : exec .rti s = .next { s with
    p := .pulled (s.read (stackCell (s.sp + 1)))
    pc := word (s.read (stackCell (s.sp + 3))) (s.read (stackCell (s.sp + 2)))
    sp := s.sp + 3
    cycles := s.cycles + baseCycles s.cfg 0x40 } := by
  rw [add_two_eq, add_three_eq]
  exact congrArg Host.Outcome.next (s.advance 0x40 1).returnFromException_eq

/-- Settles O59: RTI restores P by the bits of the byte it pulls, then PC. -/
theorem rtiRestoresStatusAndPC : Obligations.RtiRestoresStatusAndPC := by
  rintro s v rfl
  refine ⟨encodedAs_of rfl rfl, fun hcfg => baseCycles_of_same_row hcfg rfl, ?_⟩
  rw [exec_rti_eq, Status.pulled_eq]

/-! ### Waiting and stopping: WAI and STP (R262, R288) -/

theorem stuck_of_stopped {s : State} (h : s.stopped = true) : s.stuck = true := by
  rw [State.stuck, h, Bool.or_true]

@[simp] theorem requestInterrupt_stopped (s : State) (k : InterruptKind) :
    (s.requestInterrupt k).stopped = s.stopped := by
  cases k <;> rfl

theorem exec_wai_eq (s : State) : exec .wai s = .next { s with
    waiting := true
    pc := s.pc + 1
    cycles := s.cycles + baseCycles s.cfg 0xCB } := rfl

theorem exec_stp_eq (s : State) : exec .stp s = .next { s with
    stopped := true
    pc := s.pc + 1
    cycles := s.cycles + baseCycles s.cfg 0xDB } := rfl

/-- Settles O60: a stopped core is stuck, and a request leaves it stopped. -/
theorem waiWaitsAndStpStops : Obligations.WaiWaitsAndStpStops := by
  intro s
  refine ⟨fun hcfg _ => ⟨baseCycles_of_same_row hcfg rfl, baseCycles_of_same_row hcfg rfl⟩, encodedAs_of rfl rfl,
    exec_wai_eq s, encodedAs_of rfl rfl, _, exec_stp_eq s, rfl, step_of_stuck (stuck_of_stopped rfl), fun k => ?_⟩
  exact step_of_stuck (stuck_of_stopped (requestInterrupt_stopped _ k))

end Sys2Proof.Proofs
end

