-- ==== Sys2Proof/Proofs/BitBranches.lean ====
section
/-! PROOF. The optional branches on a bit of a zero-page byte (47_cmos_optional.md R270 to R286): each of the sixteen is
one shared branch on its bit and opcode byte. -/

namespace Sys2Proof.Proofs

open Sys2Proof.Machine

theorem bbrRows_runAs (z off : Byte) : ∀ row ∈ bbrRows z off,
    BitRowRunsAs row .zrel .wdc fun n op => branchOnBit n false op z off :=
  bitRowsRunAs_of_map_eq rfl rfl fun _ => rfl

theorem bbsRows_runAs (z off : Byte) : ∀ row ∈ bbsRows z off,
    BitRowRunsAs row .zrel .wdc fun n op => branchOnBit n true op z off :=
  bitRowsRunAs_of_map_eq rfl rfl fun _ => rfl

/-- Every `zrel` row has the base count 5 on CMOS, the one variant that can define it (R351). -/
theorem zrel_cycles_of_row : ∀ row ∈ opcodeRows, ∀ d ∈ row, d.mode = .zrel → d.cmosCycles = 5 := by decide

theorem baseCycles_zrel {cfg : Config} {mn : String} {op : Byte} {av : Availability} {i : Instr}
    (hcfg : cfg.cycleTable = .reference) (hv : cfg.variant = .cmos) (henc : EncodedAs mn op .zrel av i) :
    baseCycles cfg op = 5 := by
  obtain ⟨-, d, hd, -, hmode, -⟩ := henc
  obtain ⟨row, hrow, hcell⟩ := exists_row_of_tableEntry hd
  rw [baseCycles_of_row hcfg (congrArg _ hd), if_neg (by simp [hv])]
  exact zrel_cycles_of_row row (List.mem_of_getElem? hrow) d (List.mem_of_getElem? hcell) hmode

theorem read_zeroPage (s : State) (z : Byte) : s.read (zeroPage z) = s.mem.read z.toNat := by
  rw [State.read, zeroPage_toNat]

/-- What an instruction that branches when its bit is `want` does: PC and cycles, and nothing else. The target is the
offset, as an integer, from the byte after its three (R124). -/
theorem BitRowRunsAs.branchOnBit_spec {row : BitRow} {av : Availability} {z off : Byte} {want : Bool}
    (h : BitRowRunsAs row .zrel av fun n op => branchOnBit n want op z off) (s : State) :
    EncodedAs row.mnemonic row.op .zrel av row.instr ∧
    (s.cfg.cycleTable = .reference → s.cfg.variant = .cmos → baseCycles s.cfg row.op = 5) ∧
    ∀ target : Addr, target = BitVec.ofInt 16 (s.pc.toNat + 3 + off.toInt) →
      exec row.instr s = .next { s with
        pc := if (s.mem.read z.toNat).getLsbD row.bit = want then target else s.pc + 3
        cycles := s.cycles + baseCycles s.cfg row.op +
          (if (s.mem.read z.toNat).getLsbD row.bit = want then
            (if target.toNat / 256 = (s.pc + 3).toNat / 256 then 1 else 2) else 0) } := by
  refine ⟨h.encoded, fun hcfg hv => baseCycles_zrel hcfg hv h.encoded, fun target htarget => ?_⟩
  have hbranch : branchTarget (s.pc + 3) off = target := (branchTarget_add_ofNat s.pc 3 off).trans htarget.symm
  simp only [h.exec_eq, branchOnBit_eq, hbranch, pageDiffers_cycles, read_zeroPage, beq_iff_eq]

/-- Settles O50: every row in the two lists is the shared branch on its bit, wanted 0 by BBRn and 1 by BBSn. -/
theorem bitBranchesGoToTarget : Obligations.BitBranchesGoToTarget := fun s z off =>
  ⟨fun row hrow => (bbrRows_runAs z off row hrow).branchOnBit_spec s,
    fun row hrow => (bbsRows_runAs z off row hrow).branchOnBit_spec s⟩

end Sys2Proof.Proofs
end

