-- ==== Sys2Proof/Proofs/Exceptions.lean ====
section
/-! PROOF. Waiting, interrupt entry and the return from it (60_exceptions.md R300 to R320): which turn a step takes,
what an entry leaves on the stack and in the registers, that RTI takes it back, and who writes the control state. -/

namespace Sys2Proof.Proofs

open Sys2Proof.Machine

theorem stuck_eq_false_iff {s : State} : s.stuck = false ↔ s.fault = none ∧ s.stopped = false := by
  simp [State.stuck]

/-! ### The turn of a step with a request (R311, R312, R315) -/

/-- With a request, masked or not, the turn is the same whether the core waits or not: NMI, then unmasked IRQ, then an
instruction. -/
theorem turn_of_requested {s : State} (hstuck : s.stuck = false) (hrequested : s.requested = true) :
    s.turn = if s.nmiPending then .interrupt .nmi s.wake
      else if s.irqLine && !s.p.i then .interrupt .irq s.wake
      else .instruction s.wake := by
  simp [State.turn, hstuck, hrequested]

theorem step_wake {s : State} (hstuck : s.stuck = false) (hrequested : s.requested = true) :
    step s.wake = step s := by
  have hturn : s.wake.turn = s.turn :=
    (turn_of_requested (s := s.wake) hstuck hrequested).trans (turn_of_requested hstuck hrequested).symm
  simp only [step, hturn, turn_of_requested hstuck hrequested]
  split_ifs <;> rfl

theorem step_of_idle {s : State} (hstuck : s.stuck = false) (hwaiting : s.waiting = true)
    (hrequested : s.requested = false) : step s = .next (s.addCycles 1) := by
  simp [step, State.turn, hstuck, hwaiting, hrequested]

/-- Settles O8: without a request the turn is a wait cycle, and with one it does not depend on `waiting`. -/
theorem waitingCoreWakesOnRequest : Obligations.WaitingCoreWakesOnRequest := by
  intro s hfault hstopped hwaiting
  have hstuck : s.stuck = false := stuck_eq_false_iff.mpr ⟨hfault, hstopped⟩
  refine ⟨fun hnmi hirq => step_of_idle hstuck hwaiting ?_, fun hrequest => (step_wake hstuck ?_).symm⟩
  · rw [State.requested, hnmi, hirq, Bool.or_false]
  · rwa [State.requested, Bool.or_eq_true]

/-! ### Interrupt entry (R313, R314) -/

theorem step_of_nmi {s : State} (hstuck : s.stuck = false) (hnmi : s.nmiPending = true) :
    step s = .next (s.wake.interruptEntry .nmi) := by
  have hrequested : s.requested = true := by rw [State.requested, hnmi, Bool.true_or]
  simp only [step, turn_of_requested hstuck hrequested, hnmi, if_true]

theorem step_of_irq {s : State} (hstuck : s.stuck = false) (hnmi : s.nmiPending = false) (hirq : s.irqLine = true)
    (hi : s.p.i = false) : step s = .next (s.wake.interruptEntry .irq) := by
  have hrequested : s.requested = true := by rw [State.requested, hirq, Bool.or_true]
  simp [step, turn_of_requested hstuck hrequested, hnmi, hirq, hi]

theorem read_interruptEntry (s : State) (k : InterruptKind) (a : Addr) :
    (s.interruptEntry k).read a = (s.takeException (interruptVector k) s.p.pushedByInterrupt false).read a := by
  rw [interruptEntry_eq]
  rfl

/-- An interrupt entry as one record over the state it is taken from, with memory left to `read_interruptEntry`. -/
theorem interruptEntry_eq_of_eq {s t : State} {k : InterruptKind} (ht : s.interruptEntry k = t) : t = { s with
    mem := t.mem
    nmiPending := k == .irq && s.nmiPending
    sp := s.sp - 3
    p := { s.p with i := true, b := false, d := if s.cfg.variant = .cmos then false else s.p.d }
    pc := t.read16 (interruptVector k)
    cycles := s.cycles + 7 } := by
  subst ht
  rw [interruptEntry_eq]
  generalize hu : s.takeException (interruptVector k) s.p.pushedByInterrupt false = u
  rw [takeException_eq_of_eq hu]
  rfl

/-- Settles O9: the step is the entry of the kind taken, NMI before IRQ, and the bytes and the rest of the state are
those of an exception through the kind's vector. -/
theorem interruptEntrySavesAndVectors : Obligations.InterruptEntrySavesAndVectors := by
  intro s hfault hstopped hpending
  have hstuck : s.stuck = false := stuck_eq_false_iff.mpr ⟨hfault, hstopped⟩
  obtain ⟨k, hstep, hlatch, hvector⟩ : ∃ k, step s = .next (s.wake.interruptEntry k) ∧
      (k == .irq && s.nmiPending) = false ∧
      interruptVector k = if s.nmiPending = true then 0xFFFA else 0xFFFE := by
    cases hnmi : s.nmiPending with
    | true => exact ⟨.nmi, step_of_nmi hstuck hnmi, rfl, rfl⟩
    | false =>
      obtain ⟨hirq, hi⟩ := hpending.resolve_left (by simp [hnmi])
      exact ⟨.irq, step_of_irq hstuck hnmi hirq hi, rfl, rfl⟩
  obtain ⟨hhi, hlo, hp, hframe⟩ := s.wake.read_takeException (interruptVector k) s.p.pushedByInterrupt false
  have hrecord := interruptEntry_eq_of_eq (s := s.wake) (k := k) rfl
  simp only [State.wake_nmiPending, hlatch, hvector] at hrecord
  exact ⟨_, hstep, (read_interruptEntry ..).trans hhi, (read_interruptEntry ..).trans hlo,
    (read_interruptEntry ..).trans hp, fun a h1 h2 h3 => (read_interruptEntry ..).trans (hframe a h1 h2 h3), hrecord⟩

/-! ### RTI after an entry (R316, R320) -/

/-- The three bytes above the stack pointer of `t` are what RTI needs to go back to `s`, and `t` has the registers of
`s`. -/
structure SavesContext (s t : State) : Prop where
  pcHigh : t.read (stackCell s.sp) = hiByte s.pc
  pcLow : t.read (stackCell (s.sp - 1)) = loByte s.pc
  status : Status.pulled (t.read (stackCell (s.sp - 2))) = { s.p with b := true }
  sp : t.sp = s.sp - 3
  a : t.a = s.a
  x : t.x = s.x
  y : t.y = s.y

/-- RTI takes back what was saved: PC, SP, the registers, and every flag but B. -/
theorem SavesContext.rti {s t : State} (h : SavesContext s t) :
    ∃ u, exec .rti t = .next u ∧ u.pc = s.pc ∧ u.sp = s.sp ∧ u.p = { s.p with b := true } ∧
      u.a = s.a ∧ u.x = s.x ∧ u.y = s.y := by
  have hstatus : s.sp - 3 + 1 = s.sp - 2 := by bv_omega
  have hlow : s.sp - 3 + 2 = s.sp - 1 := by bv_omega
  have hhigh : s.sp - 3 + 3 = s.sp := by bv_omega
  refine ⟨_, exec_rti_eq t, ?_, ?_, ?_, h.a, h.x, h.y⟩
  · simp only [h.sp, hlow, hhigh, h.pcHigh, h.pcLow, word_hiByte_loByte]
  · simp only [h.sp, hhigh]
  · simp only [h.sp, hstatus, h.status]

theorem savesContext_takeException {s : State} {q : Byte} (hq : Status.pulled q = { s.p with b := true })
    (vector : Addr) (b : Bool) : SavesContext s (s.takeException vector q b) := by
  obtain ⟨hhi, hlo, hp, -⟩ := s.read_takeException vector q b
  exact ⟨hhi, hlo, hp.symm ▸ hq, (s.takeException_sp ..).trans (sub_three_eq s.sp).symm, s.takeException_a ..,
    s.takeException_x .., s.takeException_y ..⟩

/-- A status byte read back is the status, with B set by the 0x30. -/
theorem ofByte_toByte_or (p : Status) : Status.ofByte (p.toByte ||| 0x30) = { p with b := true } := by
  simp [Status.ofByte, Status.toByte, getElem_flagBit]

/-- The two status bytes differ from P in bits 4 and 5 alone, which RTI sets (R261). -/
theorem pulled_pushed (p : Status) : Status.pulled p.pushed = { p with b := true } := by
  rw [Status.pulled, Status.pushed, BitVec.or_assoc]
  exact ofByte_toByte_or p

theorem pulled_pushedByInterrupt (p : Status) : Status.pulled p.pushedByInterrupt = { p with b := true } := by
  have hbits : ∀ v : Byte, (v &&& 0xEF ||| 0x20) ||| 0x30 = v ||| 0x30 := by decide
  rw [Status.pulled, Status.pushedByInterrupt, hbits, ofByte_toByte_or]

theorem savesContext_interruptEntry (s : State) (k : InterruptKind) : SavesContext s (s.interruptEntry k) := by
  have h := savesContext_takeException (pulled_pushedByInterrupt s.p) (interruptVector k) false
  rw [interruptEntry_eq]
  exact ⟨h.pcHigh, h.pcLow, h.status, h.sp, h.a, h.x, h.y⟩

/-- Settles O10: every entry saves the context of the state it is taken from, which for BRK is the one two past it. -/
theorem rtiUndoesEveryEntry : Obligations.RtiUndoesEveryEntry := by
  intro s
  have hbrk := savesContext_takeException (s := s.advance 0x00 2) (pulled_pushed s.p) irqVector true
  exact ⟨fun k => (savesContext_interruptEntry s k).rti, _, exec_brk_eq_takeException s, hbrk.rti⟩

/-! ### Who writes the control state (R2, R306, R310, R320) -/

theorem exec_keepsControl {i : Instr} {s t : State} (h : exec i s = .next t) :
    t.cfg = s.cfg ∧ t.fault = s.fault ∧ t.nmiPending = s.nmiPending ∧ t.irqLine = s.irqLine ∧
      (mnemonicOf i ≠ "WAI" → t.waiting = s.waiting) ∧ (mnemonicOf i ≠ "STP" → t.stopped = s.stopped) := by
  obtain ⟨m, -, hkept⟩ := exec_controlKept h
  exact ⟨hkept.cfg, hkept.fault, hkept.nmiPending, hkept.irqLine, exec_waiting h, exec_stopped h⟩

theorem interruptEntry_keepsRequests (s : State) (k : InterruptKind) :
    (s.interruptEntry k).cfg = s.cfg ∧ (s.interruptEntry k).irqLine = s.irqLine ∧
      ((s.interruptEntry k).nmiPending = true → s.nmiPending = true) := by
  rw [interruptEntry_eq_of_eq (s := s) (k := k) rfl]
  exact ⟨rfl, rfl, fun h => (Bool.and_eq_true_iff.mp h).2⟩

theorem illegalOpcode_keepsRequests (s : State) :
    s.illegalOpcode.cfg = s.cfg ∧ s.illegalOpcode.irqLine = s.irqLine ∧
      (s.illegalOpcode.nmiPending = true → s.nmiPending = true) := by
  cases hpol : s.cfg.illegalPolicy with
  | strict =>
    rw [illegalOpcode_strict hpol]
    exact ⟨rfl, rfl, id⟩
  | permissive =>
    rw [illegalOpcode_permissive hpol]
    exact ⟨rfl, rfl, id⟩

/-- Settles O14: an operation writes at most its own control flag, and of the cases of a step only an interrupt entry
writes a request, which it clears. -/
theorem controlStateChangesOnlyByItsWriters : Obligations.ControlStateChangesOnlyByItsWriters := by
  refine ⟨fun i s t h => exec_keepsControl h, fun s t h => ?_⟩
  obtain ⟨-, -, rfl⟩ | ⟨-, -, -, -, rfl⟩ | ⟨k, -, -, rfl⟩ | ⟨i, -, -, -, hexec⟩ | ⟨e, -, -, -, rfl⟩ :=
    step_cases h
  · exact ⟨rfl, rfl, id⟩
  · exact ⟨rfl, rfl, id⟩
  · exact interruptEntry_keepsRequests s.wake k
  · obtain ⟨hcfg, -, hnmi, hirq, -⟩ := exec_keepsControl hexec
    exact ⟨hcfg, hirq, fun h => hnmi ▸ h⟩
  · exact illegalOpcode_keepsRequests s.wake

end Sys2Proof.Proofs
end

