-- ==== Sys2Proof/Proofs/Reset.lean ====
section
/-! PROOF. The reset operation (70_reset_and_hazards.md R340, R343), and that a faulted or stopped core waits for it
(60_exceptions.md R300; 47_cmos_optional.md R288). -/

namespace Sys2Proof.Proofs

open Sys2Proof.Machine

/-- P after reset is the status of the byte 0x30 (R35). -/
theorem reset_eq_ofByte : Status.reset = .ofByte 0x30 := by decide

/-- Settles O22: every field but P is written as the statement has it. -/
theorem resetOperationSetsState : Obligations.ResetOperationSetsState := by
  intro s
  rw [State.doReset, reset_eq_ofByte]
  rfl

theorem stuck_of_fault {s : State} (h : s.fault ≠ none) : s.stuck = true := by
  rw [State.stuck, Option.isSome_iff_ne_none.mpr h, Bool.true_or]

/-- Settles O7: a step leaves a stuck core as it is (log entry 4), and `reset()` writes both fields. -/
theorem stuckCoreStaysUntilReset : Obligations.StuckCoreStaysUntilReset := by
  intro s h
  exact ⟨step_of_stuck (h.elim stuck_of_fault stuck_of_stopped), rfl, rfl⟩

end Sys2Proof.Proofs
end
